-- ==== Sys2Proof/Word.lean ====
section
/-!
DEFINITION. The word types of the CRC8-J1850 framer: the byte, the 64-bit payload, the three transaction
words and the twelve-byte buffer (00_scope.md R6, R9; 30_encoding.md R50, R52, R54).
-/

namespace Sys2Proof

/-- A byte: 8 bits, bit 0 least significant (R9). -/
abbrev Byte := BitVec 8

/-- The 64-bit payload word of a frame (R50, R52 field `d`). -/
abbrev Payload := BitVec 64

/-- The 76-bit command word `CMD` (R52). -/
abbrev CmdWord := BitVec 76

/-- The 96-bit frame word `F`, byte 0 in the most significant place (R50). -/
abbrev FrameWord := BitVec 96

/-- The 79-bit response word `RSP` (R54). -/
abbrev RspWord := BitVec 79

/-- Twelve bytes with index 0 to 11: `TXBUF`, `RXBUF`, a frame, a window (R13, R14, R38, R50; log
entry 18). -/
abbrev Buffer := Vector Byte 12

end Sys2Proof
end

