-- ==== Sys2Proof/Machine/Crc8.lean ====
section
/-!
DEFINITION. The CRC-8/SAE-J1850 checksum function (40_crc8.md R65 to R68, R73), kept behind these definitions
so that the parameter set can be replaced in one place (91_not_in_source.md N2). The set is UNVERIFIED (log entry 2).
-/

namespace Sys2Proof.Machine

/-- `POLY` (R65). -/
def crcPoly : Byte := 0x1D

/-- `INIT`, the initial register value (R65). -/
def crcInitValue : Byte := 0xFF

/-- `XOROUT`, the final XOR value (R65). -/
def crcXorOut : Byte := 0xFF

/-- The residue of R73 (b). -/
def crcResidue : Byte := 0xC4

/-- One turn of the loop of R67: bit 7 is tested before the shift of the same turn. -/
def crcShift (c : Byte) : Byte :=
  if c.getLsbD 7 then (c <<< 1) ^^^ crcPoly else c <<< 1

/-- `n` turns of the loop of R67. -/
def crcShifts : Nat → Byte → Byte
  | 0, c => c
  | n + 1, c => crcShifts n (crcShift c)

/-- `CrcStep(c, b)`: one byte step, eight turns of the loop (R67). -/
def crcStep (c b : Byte) : Byte := crcShifts 8 (c ^^^ b)

/-- The loop of R66 from a given register value. -/
def crcFrom (c : Byte) (m : List Byte) : Byte := m.foldl crcStep c

/-- `CrcRaw(m)`: the register after the loop, before the final XOR (R66). -/
def crcRaw (m : List Byte) : Byte := crcFrom crcInitValue m

/-- `CRC8(m)` (R66). -/
def crc8 (m : List Byte) : Byte := crcRaw m ^^^ crcXorOut

/-- `Crc0(e)`: the loop started from zero, with no final XOR (R73 (a)). -/
def crc0 (e : List Byte) : Byte := crcFrom 0 e

/-- `T[i]`, the table form's entry (R68). -/
def crcT (i : Byte) : Byte := crcStep 0 i

end Sys2Proof.Machine
end

