-- ==== Sys2Proof/Config.lean ====
section
/-!
DEFINITION. What is fixed for an instance of the block: the fixed constants (00_scope.md R6), the open
parameters (R7), and the free values, which are opaque constants that no proof can see into.
-/

namespace Sys2Proof

/-! ## Fixed constants (R6) -/

/-- `FRAME_LEN`: bytes in a frame (R6, conflict C1). -/
abbrev frameLen : Nat := 12

/-- `PAYLOAD_LEN`: bytes of payload (R6). -/
abbrev payloadLen : Nat := 8

/-- `CRC_COVER`: bytes the checksum covers, identifier then payload (R6). -/
abbrev crcCover : Nat := 9

/-- `RETRY_BOUND`: the document's "fixed retry count (3)" (R6, D15). -/
abbrev retryBound : Nat := 3

/-- `WINDOW_FACTOR`: the controller's period "plus 50% margin" (R6). -/
abbrev windowFactor : Rat := 3 / 2

/-! ## Open parameters (R7) -/

/-- `MAX_ATTEMPTS`: 3 or 4, both readings of the retry count stay open (R7, C7, D15). -/
inductive MaxAttempts where
  /-- Three attempts: the retry count read as a count of attempts. -/
  | three
  /-- Four attempts: one attempt and three retries. -/
  | four
  deriving DecidableEq, Repr, Inhabited

/-- The number of attempts, from the document's `RETRY_BOUND` (R6, R7). -/
def MaxAttempts.toNat : MaxAttempts → Nat
  | .three => retryBound
  | .four => retryBound + 1

/-- `T_PERIOD`, a duration that is more than zero in a unit no source gives (R7, D30). It is held as one
less than its length so that zero cannot be written. -/
structure Period where
  /-- The length of the period, less one. -/
  ticksLessOne : Nat
  deriving DecidableEq, Repr, Inhabited

/-- The length of the period, always more than zero (R7). -/
def Period.ticks (p : Period) : Nat := p.ticksLessOne + 1

/-- The open parameters of one instance (R7). No operation changes them (R23). DESIGN CHOICE: they are a
field of State (log entry 1). -/
structure Params where
  /-- `SOF`, the start marker: any byte (D9). -/
  sof : Byte
  /-- `EOF`, the end marker: any byte, may equal `SOF` (D9). -/
  eof : Byte
  /-- `MAX_ATTEMPTS` (D15). -/
  maxAttempts : MaxAttempts
  /-- `FLUSH_ON_FINAL` (D16). -/
  flushOnFinal : Bool
  /-- `T_PERIOD`, read by no rule (D30). -/
  tPeriod : Period
  deriving DecidableEq, Repr, Inhabited

/-- `T_WINDOW = WINDOW_FACTOR × T_PERIOD`, the receive window of R128. No rule of the model reads it (D30). -/
def Params.tWindow (p : Params) : Rat := windowFactor * (p.tPeriod.ticks : Rat)

namespace Config

/-- The start marker of the instance, left open (R7, D9, U2). -/
opaque sof : Byte
/-- The end marker of the instance, left open (R7, D9, U2). -/
opaque eof : Byte
/-- The number of attempts of `FRM.RSYNC`, left open (R7, D15, U4). -/
opaque maxAttempts : MaxAttempts
/-- Whether the last failed attempt flushes, left open (R7, D16, U4). -/
opaque flushOnFinal : Bool
/-- The controller's message period, left open (R7, D30, U10). -/
opaque tPeriod : Period

/-- The parameters of the instance that `State.reset` is an instance of: each one is open. -/
def params : Params where
  sof := sof
  eof := eof
  maxAttempts := maxAttempts
  flushOnFinal := flushOnFinal
  tPeriod := tPeriod

/-! ## Free values: what the block's registers and the transport hold at reset (R24, R25, U9) -/

/-- `TYPE_RX` after reset: unspecified (R24, U9). -/
opaque resetTypeRx : Byte
/-- `PAYLOAD_RX` after reset: unspecified (R24, U9). -/
opaque resetPayloadRx : Payload
/-- `TXBUF` after reset: unspecified (R24, U9). -/
opaque resetTxbuf : Buffer
/-- `RXBUF` after reset: unspecified (R24, U9). -/
opaque resetRxbuf : Buffer
/-- `RXQ` after reset: any finite byte sequence (R24, the launch premise `RxAny` of R25). -/
opaque resetRxq : List Byte

/-! ## Free values: fields and reads the spec calls not meaningful (R11, R54, U3) -/

/-- The `n`-th drawn byte: the `a` field of a response where R54 calls it not meaningful, and a read of
`TYPE_RX` while `RVALID = 0` (U3). -/
opaque freeByte : Nat → Byte
/-- The `n`-th drawn word: the `d` field of a response where R54 calls it not meaningful, and a read of
`PAYLOAD_RX` while `RVALID = 0` (U3). -/
opaque freePayload : Nat → Payload

end Config

end Sys2Proof
end

