-- ==== Sys2Proof/Syntax.lean ====
section
/-!
DEFINITION. The rows of spec/opcode_table.json: the seven operations of the command word (30_encoding.md R53)
and the two other transaction words of the table, the frame on the wire (R50) and the response word (R54).
-/

namespace Sys2Proof

/-- One constructor for each row of spec/opcode_table.json. A command's ignored fields are no operands:
"An ignored field may hold any value and has no effect" (R52). -/
inductive Instr where
  /-- `CRC.INIT`, code 0x1 (R69). -/
  | crcInit
  /-- `CRC.UPD a`, code 0x2, `a` the data byte (R70). -/
  | crcUpd (a : Byte)
  /-- `CRC.GET`, code 0x3 (R71). -/
  | crcGet
  /-- `FRM.SEND type, payload`, code 0x4 (R96). -/
  | frmSend (type : Byte) (payload : Payload)
  /-- `FRM.RECV`, code 0x5 (R99). -/
  | frmRecv
  /-- `FRM.RSYNC`, code 0x6 (R105). -/
  | frmRsync
  /-- `FRM.FLUSH`, code 0x7 (R107). -/
  | frmFlush
  /-- `FRAME`: a 96-bit word on the wire towards the block, its five fields as R50 lays them out. -/
  | frame (sof type : Byte) (payload : Payload) (chk eof : Byte)
  /-- `RSP`: the 79-bit response word from the block to `Host`, its four fields as R54 lays them out. -/
  | rsp (op : BitVec 4) (status : BitVec 3) (a : Byte) (d : Payload)
  deriving DecidableEq, Repr

end Sys2Proof
end

