-- ==== Sys2Proof/Machine/Operands.lean ====
section
/-!
DEFINITION. Operand forms: how fields are assembled into bytes and words and taken out again
(00_scope.md R9 `be64`, `unbe64`; 30_encoding.md R50 to R54). The block has no register operands, no immediates
and no addressing modes (R52): bytes, the payload and the three words are all the forms there are.
-/

namespace Sys2Proof.Machine

/-! ## The payload as bytes (R9, R39) -/

/-- `be64(p)`: the eight bytes of a payload, most significant byte first (R9). -/
def be64 (p : Payload) : Vector Byte 8 :=
  #v[p.extractLsb' 56 8, p.extractLsb' 48 8, p.extractLsb' 40 8, p.extractLsb' 32 8,
     p.extractLsb' 24 8, p.extractLsb' 16 8, p.extractLsb' 8 8, p.extractLsb' 0 8]

/-- `unbe64(s) = s[0] ‖ s[1] ‖ … ‖ s[7]` (R9). -/
def unbe64 (s : Vector Byte 8) : Payload :=
  s[0] ++ s[1] ++ s[2] ++ s[3] ++ s[4] ++ s[5] ++ s[6] ++ s[7]

/-- The checksum input: identifier, then payload, nine bytes in wire order (R51 (c)). -/
def crcInput (t : Byte) (p : Payload) : List Byte := t :: (be64 p).toList

/-! ## The command word (R52) -/

/-- Field `op`, bits 75:72. -/
def cmdOp (w : CmdWord) : BitVec 4 := w.extractLsb' 72 4
/-- Field `a`, bits 71:64. -/
def cmdA (w : CmdWord) : Byte := w.extractLsb' 64 8
/-- Field `d`, bits 63:0. -/
def cmdD (w : CmdWord) : Payload := w.extractLsb' 0 64
/-- The command word of its three fields. -/
def cmdWord (op : BitVec 4) (a : Byte) (d : Payload) : CmdWord := op ++ a ++ d

/-! ## The response word (R54) -/

/-- Field `op`, bits 78:75. -/
def rspOp (w : RspWord) : BitVec 4 := w.extractLsb' 75 4
/-- Field `status`, bits 74:72. -/
def rspStatus (w : RspWord) : BitVec 3 := w.extractLsb' 72 3
/-- Field `a`, bits 71:64. -/
def rspA (w : RspWord) : Byte := w.extractLsb' 64 8
/-- Field `d`, bits 63:0. -/
def rspD (w : RspWord) : Payload := w.extractLsb' 0 64
/-- The response word of its four fields. -/
def rspWord (op : BitVec 4) (status : BitVec 3) (a : Byte) (d : Payload) : RspWord :=
  op ++ status ++ a ++ d

/-! ## The frame word (R50) -/

/-- Field `SOF`, byte 0, bits 95:88. -/
def frameSof (w : FrameWord) : Byte := w.extractLsb' 88 8
/-- Field `TYPE`, byte 1, bits 87:80. -/
def frameType (w : FrameWord) : Byte := w.extractLsb' 80 8
/-- Field `PAYLOAD`, bytes 2 to 9, bits 79:16. -/
def framePayload (w : FrameWord) : Payload := w.extractLsb' 16 64
/-- Field `CHK`, byte 10, bits 15:8. -/
def frameChk (w : FrameWord) : Byte := w.extractLsb' 8 8
/-- Field `EOF`, byte 11, bits 7:0. -/
def frameEof (w : FrameWord) : Byte := w.extractLsb' 0 8
/-- The frame word of its five fields. -/
def frameWord (sof t : Byte) (p : Payload) (chk eof : Byte) : FrameWord :=
  sof ++ t ++ p ++ chk ++ eof

/-- The twelve bytes of a frame's fields in wire order, byte 0 first (R50, R39). -/
def frameBytes (sof t : Byte) (p : Payload) (chk eof : Byte) : Buffer :=
  let b := be64 p
  #v[sof, t, b[0], b[1], b[2], b[3], b[4], b[5], b[6], b[7], chk, eof]

end Sys2Proof.Machine
end

