-- ==== Sys2Proof/Machine/Codec.lean ====
section
/-!
DEFINITION. The frame codec: the pure functions `Encode` and `Decode` (41_frame_codec.md R80, R81).
-/

namespace Sys2Proof.Machine

/-- The three results of `Decode` (R81). -/
inductive Verdict where
  /-- The window is an encoded frame with this identifier and payload. -/
  | ok (t : Byte) (p : Payload)
  /-- Byte 0 is not `SOF` or byte 11 is not `EOF`. -/
  | badFraming
  /-- Both markers are right and byte 10 is not the checksum of bytes 1 to 9. -/
  | badChecksum
  deriving DecidableEq, Repr

/-- `Encode(t, p)` (R80). -/
def encodeFrame (c : Params) (t : Byte) (p : Payload) : Buffer :=
  frameBytes c.sof t p (crc8 (crcInput t p)) c.eof

/-- Bytes 1 to 9 of a window, what the checksum covers (R51 (c)). -/
def crcCovered (f : Buffer) : List Byte :=
  [f[1], f[2], f[3], f[4], f[5], f[6], f[7], f[8], f[9]]

/-- `Decode(f)`: both markers first, then the checksum (R81, C6). -/
def decodeFrame (c : Params) (f : Buffer) : Verdict :=
  if f[0] ≠ c.sof ∨ f[11] ≠ c.eof then .badFraming
  else if crc8 (crcCovered f) ≠ f[10] then .badChecksum
  else .ok f[1] (unbe64 #v[f[2], f[3], f[4], f[5], f[6], f[7], f[8], f[9]])

end Sys2Proof.Machine
end

