-- ==== Sys2Proof/Machine/Outcomes.lean ====
section
/-!
DEFINITION. Operation codes (30_encoding.md R53), the five outcomes with their codes (60_exceptions.md R120) and
which operation can complete with which outcome (R121).
-/

namespace Sys2Proof.Machine

/-! ## Operation codes (R53) -/

/-- `CRC.INIT`. -/
def opCrcInit : BitVec 4 := 0x1
/-- `CRC.UPD`. -/
def opCrcUpd : BitVec 4 := 0x2
/-- `CRC.GET`. -/
def opCrcGet : BitVec 4 := 0x3
/-- `FRM.SEND`. -/
def opFrmSend : BitVec 4 := 0x4
/-- `FRM.RECV`. -/
def opFrmRecv : BitVec 4 := 0x5
/-- `FRM.RSYNC`. -/
def opFrmRsync : BitVec 4 := 0x6
/-- `FRM.FLUSH`. -/
def opFrmFlush : BitVec 4 := 0x7

/-- The code selects one of the seven operations; 0x0 and 0x8 to 0xF are reserved (R53, R55). -/
def opDefined (op : BitVec 4) : Bool := 1 ≤ op.toNat && op.toNat ≤ 7

/-! ## Outcomes (R120) -/

/-- The five outcomes. `STATUS` codes 5 to 7 are never produced (R20, R120), so they have no constructor
(log entry 26). -/
inductive Status where
  /-- The operation did what its contract says. -/
  | ok
  /-- Window byte 0 is not `SOF`, or byte 11 is not `EOF`. -/
  | badFraming
  /-- Both markers right, byte 10 is not `CRC8` of bytes 1 to 9. -/
  | badChecksum
  /-- `Link` step `timeout`: the window was not filled. -/
  | timeout
  /-- `Link` step `fail`: the transport failed. -/
  | ioFail
  deriving DecidableEq, Repr

/-- The numeric code of an outcome, the three bits of `STATUS` (R20, R120). -/
def Status.code : Status → BitVec 3
  | .ok => 0
  | .badFraming => 1
  | .badChecksum => 2
  | .timeout => 3
  | .ioFail => 4

/-- The code is one of the five that are produced (R120). -/
def statusDefined (st : BitVec 3) : Bool := st.toNat ≤ 4

/-- Which operation can complete with which outcome (R121): `OK` for all seven, `IO_FAIL` for the three that use
the sequencer, the other three outcomes for the two receive operations. -/
def statusPossible (op : BitVec 4) (st : BitVec 3) : Bool :=
  opDefined op &&
    (st == Status.ok.code ||
     (op == opFrmSend && st == Status.ioFail.code) ||
     ((op == opFrmRecv || op == opFrmRsync) && statusDefined st))

end Sys2Proof.Machine
end

