-- ==== Sys2Proof/WellFormed.lean ====
section
/-!
DEFINITION. Which terms of `Instr` stand for words the spec allows. Every value of a command's operands is legal
(30_encoding.md R52, R56); a frame carries the two markers and its own checksum (R50, 41_frame_codec.md R80);
a response names a defined operation and an outcome that operation can complete with (R54, 60_exceptions.md R121).
-/

namespace Sys2Proof

/-- The checks on a term, against the parameters of the instance. -/
def Instr.wellFormed (c : Params) : Instr → Bool
  | .crcInit => true
  | .crcUpd _ => true
  | .crcGet => true
  | .frmSend _ _ => true
  | .frmRecv => true
  | .frmRsync => true
  | .frmFlush => true
  | .frame sof t p chk eof =>
    sof == c.sof && eof == c.eof && chk == Machine.crc8 (Machine.crcInput t p)
  | .rsp op status _ _ => Machine.statusPossible op status

/-- `i` is well formed for the parameters `c`. -/
abbrev Instr.WellFormed (c : Params) (i : Instr) : Prop := i.wellFormed c = true

end Sys2Proof
end

