-- ==== Sys2Proof/Decode.lean ====
section
/-!
DEFINITION. Decoding of the three transaction words, total and rejecting by name, and the encoder, both written
from the spec's layouts (30_encoding.md R50, R52 to R55). Each word travels at a port of its own (command, response,
wire), so each has its own decoder; `decodeTableWord` picks the port from the width spec/opcode_table.json gives.
-/

namespace Sys2Proof

open Machine

/-- Why a word is no instruction. -/
inductive Reject where
  /-- A reserved operation code, 0x0 or 0x8 to 0xF (R55). -/
  | reservedOp (op : BitVec 4)
  /-- A response word with one of the outcome codes 5 to 7, which are never produced (R120). -/
  | reservedStatus (status : BitVec 3)
  /-- No row of the table has this width (R58: words are of fixed size). -/
  | noSuchWidth (nbits : Nat)
  deriving DecidableEq, Repr

/-- The command word `Host` presents (R52, R53, R55). -/
def decodeCmd (w : CmdWord) : Except Reject Instr :=
  match (cmdOp w).toNat with
  | 1 => .ok .crcInit
  | 2 => .ok (.crcUpd (cmdA w))
  | 3 => .ok .crcGet
  | 4 => .ok (.frmSend (cmdA w) (cmdD w))
  | 5 => .ok .frmRecv
  | 6 => .ok .frmRsync
  | 7 => .ok .frmFlush
  | _ => .error (.reservedOp (cmdOp w))

/-- The response word the block sends (R54). -/
def decodeRsp (w : RspWord) : Except Reject Instr :=
  if !opDefined (rspOp w) then .error (.reservedOp (rspOp w))
  else if !statusDefined (rspStatus w) then .error (.reservedStatus (rspStatus w))
  else .ok (.rsp (rspOp w) (rspStatus w) (rspA w) (rspD w))

/-- The frame word on the wire: every 96-bit word is twelve bytes of a frame's shape; what a receiver makes of them
is `Decode`'s business (R50, R57; log entry 27). -/
def decodeFrameWord (w : FrameWord) : Instr :=
  .frame (frameSof w) (frameType w) (framePayload w) (frameChk w) (frameEof w)

/-- A word of `nbits` bits, by the table's widths: 76 a command, 79 a response, 96 a frame. The table's 76 and 79 are
both 80 in whole bytes; there a word that fits the command port's 76 bits is a command and a longer one a response
(DESIGN CHOICE, log entry 15). -/
def decodeWord (nbits w : Nat) : Except Reject Instr :=
  match nbits with
  | 76 => decodeCmd (BitVec.ofNat 76 w)
  | 79 => decodeRsp (BitVec.ofNat 79 w)
  | 80 => if w < 2 ^ 76 then decodeCmd (BitVec.ofNat 76 w) else decodeRsp (BitVec.ofNat 79 w)
  | 96 => .ok (decodeFrameWord (BitVec.ofNat 96 w))
  | n => .error (.noSuchWidth n)

/-- The instruction the decoder reads from a word of the table, `none` where it refuses. -/
def decodeTableWord (nbits w : Nat) : Option Instr :=
  match decodeWord nbits w with
  | .ok i => some i
  | .error _ => none

/-! ## The encoder -/

/-- A word of the table: its width there and its bits as one number. -/
structure TableWord where
  /-- The row's width in bits. -/
  nbits : Nat
  /-- The bits, bit 0 the least significant. -/
  bits : Nat
  deriving DecidableEq, Repr

/-- A command word of the table. -/
def TableWord.ofCmd (w : CmdWord) : TableWord := ⟨76, w.toNat⟩
/-- A response word of the table. -/
def TableWord.ofRsp (w : RspWord) : TableWord := ⟨79, w.toNat⟩
/-- A frame word of the table. -/
def TableWord.ofFrame (w : FrameWord) : TableWord := ⟨96, w.toNat⟩

/-- The word of an instruction. The encoder writes zeros into a command's ignored fields (R52; DESIGN CHOICE, log
entry 19). -/
def encode : Instr → TableWord
  | .crcInit => .ofCmd (cmdWord opCrcInit 0 0)
  | .crcUpd a => .ofCmd (cmdWord opCrcUpd a 0)
  | .crcGet => .ofCmd (cmdWord opCrcGet 0 0)
  | .frmSend t p => .ofCmd (cmdWord opFrmSend t p)
  | .frmRecv => .ofCmd (cmdWord opFrmRecv 0 0)
  | .frmRsync => .ofCmd (cmdWord opFrmRsync 0 0)
  | .frmFlush => .ofCmd (cmdWord opFrmFlush 0 0)
  | .frame sof t p chk eof => .ofFrame (frameWord sof t p chk eof)
  | .rsp op status a d => .ofRsp (rspWord op status a d)

end Sys2Proof
end

