-- ==== Sys2Proof/Machine/State.lean ====
section
/-!
DEFINITION. The state of the block and of its environment as plain data, the reasons a step can stop, and the state
right after reset (10_state.md R10 to R25; 20_memory.md R30, R31, R37).
-/

namespace Sys2Proof.Machine

/-- The sequencer register `PHASE` (R16). Its fourth code is never taken and has no constructor (U11; log
entry 26). -/
inductive Phase where
  /-- 0: no frame operation is in progress. -/
  | idle
  /-- 1: `FRM.SEND` is moving bytes out. -/
  | tx
  /-- 2: `FRM.RECV` or `FRM.RSYNC` is filling a window. -/
  | rx
  deriving DecidableEq, Repr

/-- The two bits of `PHASE` (R16). -/
def Phase.code : Phase → BitVec 2
  | .idle => 0
  | .tx => 1
  | .rx => 2

/-- One response transaction from the block to `Host`: the fields of the word `RSP` (R54). -/
structure Response where
  /-- The code of the operation that completed. -/
  op : BitVec 4
  /-- Its outcome code. -/
  status : BitVec 3
  /-- The byte field. -/
  a : Byte
  /-- The word field. -/
  d : Payload
  deriving DecidableEq, Repr

/-- The registers and flags `Host` may read (R15). -/
inductive HostReg where
  | typeRx
  | payloadRx
  | att
  | status
  | rvalid
  | busy
  deriving DecidableEq, Repr

/-- What `Host` has learnt: a response it took (R54) or a register it read (R11, R15, R20). -/
inductive HostEvent where
  | response (r : Response)
  | register (r : HostReg) (v : Payload)
  deriving DecidableEq, Repr

/-- The steps of `Link` (R37). -/
inductive LinkStep where
  /-- A byte arrives at the tail of `RXQ`. -/
  | deliver (b : Byte)
  /-- The head of `TXQ` leaves on the wire. -/
  | wireOut
  /-- The receive attempt in progress times out (R102). -/
  | timeout
  /-- The transport fails (R98, R103). `keep` is the draw of R98: how long a prefix of `TXQ` survives
  (log entry 12). -/
  | fail (keep : Nat)
  deriving DecidableEq, Repr

/-- Which agent takes a step, with the choices the environment makes in it (R10, U12). -/
inductive Turn where
  /-- `Host` presents the next command word of its program (R95). -/
  | host
  /-- `Host` takes the oldest response the block has sent (R54). -/
  | response
  /-- `Host` reads a register (R11, R15; log entry 17). -/
  | read (r : HostReg)
  /-- `Framer` takes the one step it has enabled (R108). -/
  | framer
  /-- `Link` takes a step of its own (R37). -/
  | link (l : LinkStep)
  /-- `Link` delivers the twelve bytes of a frame word, in order (R37, R50). -/
  | frame (w : FrameWord)
  deriving DecidableEq, Repr

/-- The whole machine. No field is a function. -/
structure State where
  /-- `PHASE` (R16). -/
  phase : Phase
  /-- `TXI`, index of the next `TXBUF` byte to hand over (R17). -/
  txi : BitVec 4
  /-- `RXC`, number of bytes of the window already in `RXBUF` (R17). -/
  rxc : BitVec 4
  /-- `ATT`, failed attempts of the current or last `FRM.RSYNC` (R18). -/
  att : BitVec 3
  /-- `OP`, code of the frame operation in progress or last completed (R19). -/
  op : BitVec 4
  /-- `STATUS`, outcome of the last completed frame operation (R20). -/
  status : Status
  /-- `RVALID` (R21). -/
  rvalid : Bool
  /-- `CRC`, the raw remainder of the host-driven computation (R12). -/
  crc : Byte
  /-- `TYPE_RX` (R11). -/
  typeRx : Byte
  /-- `PAYLOAD_RX` (R11). -/
  payloadRx : Payload
  /-- `TXBUF[0..11]` (R13). -/
  txbuf : Buffer
  /-- `RXBUF[0..11]` (R14). -/
  rxbuf : Buffer
  /-- `RXQ`, the transport's input queue, head first (R22, R30). -/
  rxq : List Byte
  /-- `TXQ`, the transport's output queue, head first (R22, R31). -/
  txq : List Byte
  /-- `WIRE`, all bytes that have left `TXQ` since reset (R22, R31). -/
  wire : List Byte
  /-- MODEL's own: the parameters of the instance (R7, R23; log entry 1). No step writes them. -/
  params : Params
  /-- MODEL's own: responses sent and not yet taken by `Host`, oldest first (R54; log entry 11). -/
  rspq : List Response
  /-- MODEL's own: what `Host` has taken and read since reset, oldest first (R10; log entry 11). -/
  hostLog : List HostEvent
  /-- MODEL's own: the command words `Host` has still to issue, next first (R110; log entry 5). -/
  program : List CmdWord
  /-- MODEL's own: which agent steps next, as far as it is laid down (R10, U12; log entry 5). -/
  sched : List Turn
  /-- MODEL's own: how many free values have been drawn (U3; log entry 10). -/
  draws : Nat
  deriving DecidableEq, Repr

/-- Faults: none. "The block itself has no *fault*: no input makes it trap or behave undefinedly" (R126). -/
inductive Fault : Type
  deriving DecidableEq, Repr

/-- Reasons the model declines a run. -/
inductive Refusal where
  /-- An instruction that has no meaning in the model. Raised by no arm. Safe. -/
  | notModelled (mnemonic : String)
  /-- `Host` presented a command word with a reserved code (R55, U1). Raised by the `host` turn. Safe. -/
  | reserved (why : Reject)
  /-- `Host` issues, or reads a register other than `BUSY`, while `BUSY = 1`: such runs do not exist (R95, R11, D20,
  U7). Raised by the seven operations and by `Host`'s register reads. Safe (log entry 9). -/
  | busy
  /-- The schedule names a step that is not enabled: "No other combination of `PHASE` and step is enabled" (R108, R37).
  Raised by `takeTurn`. Safe (log entry 8). -/
  | notEnabled
  /-- A response word that is not the oldest one the block has sent: there is no such transaction (R95 (d)). Raised by
  `RSP`. Safe. -/
  | noSuchResponse
  deriving DecidableEq, Repr

/-- What one step answers. -/
abbrev StepResult := Host.Outcome State Fault Refusal

/-- The machine right after reset (R24), with the launch premises `TxEmpty` and `RxAny` of R25: what R24 leaves
unspecified is a free value of `Config` (DESIGN CHOICE, unsafe: log entries 3, 4), and no command and no schedule is laid
down (log entry 24). -/
def State.reset : State where
  phase := .idle
  txi := 0
  rxc := 0
  att := 0
  op := 0
  status := .ok
  rvalid := false
  crc := 0xFF
  typeRx := Config.resetTypeRx
  payloadRx := Config.resetPayloadRx
  txbuf := Config.resetTxbuf
  rxbuf := Config.resetRxbuf
  rxq := Config.resetRxq
  txq := []
  wire := []
  params := Config.params
  rspq := []
  hostLog := []
  program := []
  sched := []
  draws := 0

end Sys2Proof.Machine
end

