-- ==== Sys2Proof/Machine/Flags.lean ====
section
/-!
DEFINITION. The flags (10_state.md R21). There are no arithmetic condition codes: `BUSY` is derived from `PHASE`,
`RVALID` is a stored bit that these two operations change.
-/

namespace Sys2Proof.Machine

/-- `BUSY = 1` exactly when `PHASE != IDLE` (R21). -/
def State.busy (s : State) : Bool := s.phase != .idle

/-- `RVALID <- 0`, at the issue of a receive operation (R21). -/
def State.clearValid (s : State) : State := { s with rvalid := false }

/-- `RVALID <- 1`, at the completion of a receive operation with `OK` (R21). -/
def State.setValid (s : State) : State := { s with rvalid := true }

end Sys2Proof.Machine
end

