-- ==== Sys2Proof/Machine/Ops.lean ====
section
/-!
DEFINITION. The shared operations over buffers, streams and registers: `MemRead` and `MemWrite` (00_scope.md R9), the
transport primitives (20_memory.md R32 to R36), the effects of `Link`'s own steps (R37), the response transaction
(30_encoding.md R54) and `Complete`, which stands in place of taking an exception (60_exceptions.md R122). Nothing is
returned from: "There is no return-from-trap operation because nothing is entered" (R125).
-/

namespace Sys2Proof.Machine

/-! ## Buffers (R9, R41) -/

/-- `MemRead(B, i, 1)`, one byte of a buffer (R9). The whole of a buffer, `MemRead(B, 0, 12)`, is the buffer itself. -/
def readByte (b : Buffer) (i : Fin frameLen) : Byte := b[i]

/-- `MemWrite(B, i, 1, v)`, one byte of a buffer (R9). -/
def writeByte (b : Buffer) (i : Fin frameLen) (v : Byte) : Buffer := b.set i v

/-- `MemWrite(B, 0, 12, s)`: all twelve bytes in one step, the only multi-byte write there is (R41). -/
def writeAll (_b s : Buffer) : Buffer := s

/-! ## Transport primitives (R32 to R36) -/

/-- `TxPut(b)` (R32). -/
def State.txPut (b : Byte) (s : State) : State := { s with txq := s.txq ++ [b] }

/-- `TxDrained()` (R33). -/
def State.txDrained (s : State) : Bool := s.txq.isEmpty

/-- `RxAvail()` (R34). -/
def State.rxAvail (s : State) : Bool := !s.rxq.isEmpty

/-- `RxTake()`: the head of `RXQ` and the state without it, `none` when not `RxAvail()` (R35). -/
def State.rxTake (s : State) : Option (Byte × State) :=
  match s.rxq with
  | [] => none
  | b :: rest => some (b, { s with rxq := rest })

/-- `RxFlush()` (R36). -/
def State.rxFlush (s : State) : State := { s with rxq := [] }

/-! ## What `Link`'s own steps do to the queues (R37) -/

/-- `deliver(b)` for each byte of a sequence, in order (R37, R59 `LINK.DELIVER`). -/
def State.deliver (bs : List Byte) (s : State) : State := { s with rxq := s.rxq ++ bs }

/-- `wire_out`, `none` when `TXQ` is empty (R37). -/
def State.wireOut (s : State) : Option State :=
  match s.txq with
  | [] => none
  | b :: rest => some { s with wire := s.wire ++ [b], txq := rest }

/-- `TXQ` cut to the prefix of the drawn length (R98). -/
def State.cutTx (keep : Nat) (s : State) : State := { s with txq := s.txq.take keep }

/-! ## Response and completion -/

/-- `respond(…)`: one response transaction. A field R54 calls not meaningful is given as `none` and holds a free
value (U3). -/
def State.respond (op : BitVec 4) (st : BitVec 3) (a : Option Byte) (d : Option Payload) (s : State) : State :=
  { s with
    rspq := s.rspq ++ [⟨op, st, a.getD (Config.freeByte s.draws), d.getD (Config.freePayload s.draws)⟩]
    draws := s.draws + 1 }

/-- `Complete(s)` (R122): record the outcome, return to `IDLE`, respond. -/
def State.complete (st : Status) (s : State) : State :=
  { s with status := st, phase := .idle }.respond s.op st.code none none

/-- `Complete(OK, t, p)` (R122): the same for an accepted frame, which is recorded and reported. -/
def State.completeOk (t : Byte) (p : Payload) (s : State) : State :=
  { s.setValid with typeRx := t, payloadRx := p, status := .ok, phase := .idle }.respond
    s.op Status.ok.code (some t) (some p)

/-- `Host` takes the oldest response the block has sent, `none` when there is none (R10, R54). -/
def State.takeResponse (s : State) : Option State :=
  match s.rspq with
  | [] => none
  | r :: rest => some { s with rspq := rest, hostLog := s.hostLog ++ [.response r] }

/-! ## Issue (R95) -/

/-- An operation is accepted only when `BUSY = 0` (R95 (a)). -/
def whenIdle (s t : State) : StepResult := if s.busy then .refused .busy else .next t

/-! ## Register reads by `Host` (R11, R15, R20) -/

/-- The value a read returns. `TYPE_RX` and `PAYLOAD_RX` are fixed only while `RVALID = 1`; a read at another time
returns a free value (R11, U3). -/
def State.hostValue (r : HostReg) (s : State) : Payload :=
  match r with
  | .typeRx => (if s.rvalid then s.typeRx else Config.freeByte s.draws).setWidth 64
  | .payloadRx => if s.rvalid then s.payloadRx else Config.freePayload s.draws
  | .att => s.att.setWidth 64
  | .status => s.status.code.setWidth 64
  | .rvalid => (BitVec.ofBool s.rvalid).setWidth 64
  | .busy => (BitVec.ofBool s.busy).setWidth 64

/-- `Host` reads a register: every one but `BUSY` only when `BUSY = 0` (R15). A read has no effect on the block. -/
def State.hostRead (r : HostReg) (s : State) : StepResult :=
  if r ≠ .busy ∧ s.busy then .refused .busy
  else .next { s with hostLog := s.hostLog ++ [.register r (s.hostValue r)], draws := s.draws + 1 }

end Sys2Proof.Machine
end

