-- ==== Sys2Proof/Machine/CrcFamily.lean ====
section
/-!
DEFINITION. The three operations that drive the checksum register by hand (40_crc8.md R69 to R71). Each does all its
work and responds in the step that accepts it (42_link_operations.md R95 (b)).
-/

namespace Sys2Proof.Machine

/-- `CRC.INIT` (R69). -/
def execCrcInit (s : State) : StepResult :=
  whenIdle s ({ s with crc := crcInitValue }.respond opCrcInit Status.ok.code none none)

/-- `CRC.UPD a` (R70). -/
def execCrcUpd (a : Byte) (s : State) : StepResult :=
  whenIdle s ({ s with crc := crcStep s.crc a }.respond opCrcUpd Status.ok.code none none)

/-- `CRC.GET -> a` (R71). -/
def execCrcGet (s : State) : StepResult :=
  whenIdle s (s.respond opCrcGet Status.ok.code (some (s.crc ^^^ crcXorOut)) none)

end Sys2Proof.Machine
end

