-- ==== Sys2Proof/Machine/LinkFamily.lean ====
section
/-!
DEFINITION. The issue steps of the four link operations (42_link_operations.md R97, R101, R106, R107). What follows an
issue is the sequencer's, in Machine/Sequencer.lean.
-/

namespace Sys2Proof.Machine

/-- `FRM.SEND type, payload`: the issue step (R96, R97). -/
def execFrmSend (t : Byte) (p : Payload) (s : State) : StepResult :=
  whenIdle s
    { s with op := opFrmSend, txbuf := writeAll s.txbuf (encodeFrame s.params t p), txi := 0, phase := .tx }

/-- `FRM.RECV`: the issue step (R99, R101). -/
def execFrmRecv (s : State) : StepResult :=
  whenIdle s { s.clearValid with op := opFrmRecv, rxc := 0, phase := .rx }

/-- `FRM.RSYNC`: the issue step (R105, R106). -/
def execFrmRsync (s : State) : StepResult :=
  whenIdle s { s.clearValid with op := opFrmRsync, att := 0, rxc := 0, phase := .rx }

/-- `FRM.FLUSH`: all of it is the issue step (R107; log entry 28). -/
def execFrmFlush (s : State) : StepResult :=
  whenIdle s ({ s.rxFlush with op := opFrmFlush, status := .ok }.respond opFrmFlush Status.ok.code none none)

end Sys2Proof.Machine
end

