-- ==== Sys2Proof/Machine/Ports.lean ====
section
/-!
DEFINITION. The two rows of the table that are no operations of `Host`: the frame on the wire and the response word.
Each is a transaction at a port of the block and its meaning is that transaction (log entries 13 and 14).
-/

namespace Sys2Proof.Machine

/-- `FRAME`: `Link` delivers the frame's twelve bytes, byte 0 first, as twelve `deliver` steps in order (R37, R50, R59).
`deliver` is always enabled, and the bytes are any bytes at all: what a receiver makes of them is `Decode`'s. -/
def execFrame (sof t : Byte) (p : Payload) (chk eof : Byte) (s : State) : StepResult :=
  .next (s.deliver (frameBytes sof t p chk eof).toList)

/-- `RSP`: `Host` takes the oldest response the block has sent, which must be this word (R10, R54). -/
def execRsp (op : BitVec 4) (st : BitVec 3) (a : Byte) (d : Payload) (s : State) : StepResult :=
  match s.takeResponse with
  | some t => if s.rspq.head? = some ⟨op, st, a, d⟩ then .next t else .refused .noSuchResponse
  | none => .refused .noSuchResponse

end Sys2Proof.Machine
end

