-- ==== Sys2Proof/Machine/Dispatch.lean ====
section
/-! DEFINITION. Dispatch: one arm per constructor of `Instr`, each one direct call of its meaning. -/

namespace Sys2Proof.Machine

/-- The meaning of an instruction. -/
def exec (i : Instr) (s : State) : Host.Outcome State Fault Refusal :=
  match i with
  -- the CRC family (40_crc8.md)
  | .crcInit => Sys2Proof.Machine.execCrcInit s
  | .crcUpd a => Sys2Proof.Machine.execCrcUpd a s
  | .crcGet => Sys2Proof.Machine.execCrcGet s
  -- the link family (42_link_operations.md)
  | .frmSend t p => Sys2Proof.Machine.execFrmSend t p s
  | .frmRecv => Sys2Proof.Machine.execFrmRecv s
  | .frmRsync => Sys2Proof.Machine.execFrmRsync s
  | .frmFlush => Sys2Proof.Machine.execFrmFlush s
  -- the two words of the table that are no operations (30_encoding.md)
  | .frame sof t p chk eof => Sys2Proof.Machine.execFrame sof t p chk eof s
  | .rsp op st a d => Sys2Proof.Machine.execRsp op st a d s

end Sys2Proof.Machine
end

