-- ==== Sys2Proof/Machine/Sequencer.lean ====
section
/-!
DEFINITION. The sequencer: the steps `Framer` takes by itself between the issue of an operation and its completion, and
the steps of `Link` (42_link_operations.md R97, R98, R101 to R104, R108; 20_memory.md R37). `none` says that the step
is not enabled.
-/

namespace Sys2Proof.Machine

/-! ## Steps of `Framer` -/

/-- `put` (R97). -/
def State.put (s : State) : Option State :=
  if h : s.txi.toNat < frameLen then
    some { s.txPut (readByte s.txbuf ⟨s.txi.toNat, h⟩) with txi := s.txi + 1 }
  else none

/-- `drain` (R97). -/
def State.drain (s : State) : Option State :=
  if s.txi.toNat = frameLen ∧ s.txDrained then some (s.complete .ok) else none

/-- `take` (R101). -/
def State.take (s : State) : Option State :=
  if h : s.rxc.toNat < frameLen then
    match s.rxTake with
    | some (b, t) => some { t with rxbuf := writeByte t.rxbuf ⟨s.rxc.toNat, h⟩ b, rxc := s.rxc + 1 }
    | none => none
  else none

/-- A failed attempt of `FRM.RSYNC`: count it, then give up or flush and try again (R104, branch `OP = 0x6`). -/
def State.attemptFailed (r : Status) (s : State) : State :=
  let s1 := { s with att := s.att + 1 }
  if s1.att.toNat = s1.params.maxAttempts.toNat then
    (if s1.params.flushOnFinal then s1.rxFlush else s1).complete r
  else { s1.rxFlush with rxc := 0 }

/-- The end of an attempt whose window does not decode (R104). -/
def State.windowBad (r : Status) (s : State) : Option State :=
  if s.op = opFrmRecv then some (s.complete r)
  else if s.op = opFrmRsync then some (s.attemptFailed r)
  else none

/-- The end of an attempt whose window decodes (R104). -/
def State.windowOk (t : Byte) (p : Payload) (s : State) : Option State :=
  if s.op = opFrmRecv ∨ s.op = opFrmRsync then some (s.completeOk t p) else none

/-- `check` (R104). -/
def State.check (s : State) : Option State :=
  if s.rxc.toNat = frameLen then
    match decodeFrame s.params s.rxbuf with
    | .ok t p => s.windowOk t p
    | .badFraming => s.windowBad .badFraming
    | .badChecksum => s.windowBad .badChecksum
  else none

/-- The step `Framer` has enabled, if any: at most one (R108). -/
def State.framerStep (s : State) : Option State :=
  match s.phase with
  | .idle => none
  | .tx => if s.txi.toNat < frameLen then s.put else s.drain
  | .rx => if s.rxc.toNat < frameLen then s.take else s.check

/-! ## Steps of `Link` (R37) -/

/-- `timeout` (R102; log entry 25). -/
def State.linkTimeout (s : State) : Option State :=
  if s.phase = .rx ∧ s.rxc.toNat < frameLen ∧ s.rxAvail = false then some (s.complete .timeout) else none

/-- `fail` (R98 while sending, R103 while receiving). -/
def State.linkFail (keep : Nat) (s : State) : Option State :=
  match s.phase with
  | .idle => none
  | .tx => some ((s.cutTx keep).complete .ioFail)
  | .rx => if s.rxc.toNat < frameLen then some (s.complete .ioFail) else none

/-- A step of `Link` (R37). -/
def State.linkStep (l : LinkStep) (s : State) : Option State :=
  match l with
  | .deliver b => some (s.deliver [b])
  | .wireOut => s.wireOut
  | .timeout => s.linkTimeout
  | .fail keep => s.linkFail keep

/-! ## Where no schedule is laid down -/

/-- The turn taken when the schedule says nothing: what the fairness assumptions of R109 promise, on a link that
delivers no more. `Framer`'s step if one is enabled (F-a); a byte leaves on the wire while a send waits for it (F-b);
a starved attempt times out (F-c); an idle block is given `Host`'s next command; otherwise nothing happens (log
entry 6). -/
def State.defaultTurn (s : State) : Option Turn :=
  if s.framerStep.isSome then some .framer
  else match s.phase with
    | .tx => if s.txDrained then none else some (.link .wireOut)
    | .rx => if s.linkTimeout.isSome then some (.link .timeout) else none
    | .idle => if s.program.isEmpty then none else some .host

end Sys2Proof.Machine
end

