-- ==== Sys2Proof/Machine/Turns.lean ====
section
/-!
DEFINITION. One turn of one agent (10_state.md R10), and how a word of the opcode table is placed where the next step
runs it.
-/

namespace Sys2Proof.Machine

/-- The step an agent has enabled, or the refusal of a schedule that names one that is not (R108). -/
def ifEnabled : Option State → StepResult
  | some s => .next s
  | none => .refused .notEnabled

/-- `Host` presents the next word of its program and the block accepts it (R52, R95). -/
def issueNext (s : State) : StepResult :=
  match s.program with
  | [] => .refused .notEnabled
  | w :: rest =>
    match decodeCmd w with
    | .ok i => exec i { s with program := rest }
    | .error why => .refused (.reserved why)

/-- One turn (R10, R37, R95, R108). -/
def takeTurn (t : Turn) (s : State) : StepResult :=
  match t with
  | .host => issueNext s
  | .response => ifEnabled s.takeResponse
  | .read r => s.hostRead r
  | .framer => ifEnabled s.framerStep
  | .link l => ifEnabled (s.linkStep l)
  | .frame w => exec (decodeFrameWord w) s

/-- One step of the whole machine: the scheduled turn, or the default one where none is laid down. A state in which
nothing is enabled stays as it is (log entry 7). -/
def stepOnce (s : State) : StepResult :=
  match s.sched with
  | t :: rest => takeTurn t { s with sched := rest }
  | [] =>
    match s.defaultTurn with
    | some t => takeTurn t s
    | none => .next s

/-- `s` with a word of the table placed at its port and that port's turn scheduled next (log entries 15, 16). A word
no decoder reads goes to the command port, as the reserved word 0 where it does not fit there. -/
def placeWord (nbits w : Nat) (s : State) : State :=
  match decodeTableWord nbits w with
  | some (.frame _ _ _ _ _) => { s with sched := .frame (BitVec.ofNat 96 w) :: s.sched }
  | some (.rsp op st a d) => { s with rspq := ⟨op, st, a, d⟩ :: s.rspq, sched := .response :: s.sched }
  | some _ => { s with program := BitVec.ofNat 76 w :: s.program, sched := .host :: s.sched }
  | none =>
    { s with program := (if w < 2 ^ 76 then BitVec.ofNat 76 w else 0) :: s.program, sched := .host :: s.sched }

end Sys2Proof.Machine
end

