-- ==== Sys2Proof/Safety.lean ====
section
/-!
DEFINITION. What the claims speak of: the legal states of the block (the ranges U11 says are never left, and what the
registers stand for), the launch premises of 10_state.md R25, operations under way, and how far an operation has to go.
-/

namespace Sys2Proof.Machine

/-! ## What a step is asked to do -/

/-- `s` with one more turn laid down, to be taken by the next step. -/
def State.scheduled (n : Turn) (s : State) : State := { s with sched := n :: s.sched }

/-- The bytes the next step delivers into `RXQ`, as the schedule says (R37). -/
def State.arriving (s : State) : List Byte :=
  match s.sched with
  | .link (.deliver b) :: _ => [b]
  | .frame w :: _ => (frameBytes (frameSof w) (frameType w) (framePayload w) (frameChk w) (frameEof w)).toList
  | _ => []

/-- The next step has `Host` issue this operation (R95). -/
def State.Issues (i : Instr) (s : State) : Prop :=
  s.busy = false ∧ ∃ w rest, s.program = w :: rest ∧ decodeCmd w = .ok i ∧
    (s.sched = [] ∨ ∃ later, s.sched = .host :: later)

/-- The next step issues an operation that does all its work at once, the one of this code (R95 (b)). -/
def State.IssuesAtOnce (op : BitVec 4) (s : State) : Prop :=
  (op = opCrcInit ∧ s.Issues .crcInit) ∨ (op = opCrcUpd ∧ ∃ x, s.Issues (.crcUpd x)) ∨
    (op = opCrcGet ∧ s.Issues .crcGet) ∨ (op = opFrmFlush ∧ s.Issues .frmFlush)

/-- The next step issues a send, whatever its operands (R97). -/
def State.IssuesSend (s : State) : Prop := ∃ ty p, s.Issues (.frmSend ty p)

/-- The turn the next step takes, if it takes one. -/
def State.nextTurn (s : State) : Option Turn :=
  match s.sched with
  | n :: _ => some n
  | [] => s.defaultTurn

/-- The outcome of a verdict (R81, R120). -/
def Verdict.outcome : Verdict → Status
  | .ok _ _ => .ok
  | .badFraming => .badFraming
  | .badChecksum => .badChecksum

/-- Where the next step completes the operation in progress, `r` is the outcome it completes with (R97, R98, R102 to R104):
`OK` of a drained send, the verdict on a full window, `TIMEOUT`, `IO_FAIL`. -/
def State.CompletesWith (r : Status) (s : State) : Prop :=
  (s.nextTurn = some .framer ∧ s.phase = .tx ∧ r = .ok) ∨
  (s.nextTurn = some .framer ∧ s.phase = .rx ∧ r = (decodeFrame s.params s.rxbuf).outcome) ∨
  (s.nextTurn = some (.link .timeout) ∧ r = .timeout) ∨
  (∃ keep, s.nextTurn = some (.link (.fail keep)) ∧ r = .ioFail)

/-- The next step is the check step of an `FRM.RSYNC` whose window does not decode (R104). -/
def State.CountsFailure (s : State) : Prop :=
  s.nextTurn = some .framer ∧ s.phase = .rx ∧ s.rxc.toNat = frameLen ∧ s.op = opFrmRsync ∧
    (decodeFrame s.params s.rxbuf).outcome ≠ .ok

/-- The step is enabled and moves `PHASE` and the counters to these values. -/
def MovesTo (result : StepResult) (phase : Phase) (txi rxc : BitVec 4) (att : BitVec 3) : Prop :=
  ∃ t, result = .next t ∧ t.phase = phase ∧ t.txi = txi ∧ t.rxc = rxc ∧ t.att = att

/-! ## Where a run starts and ends -/

/-- The launch premise `Idle` (R25). -/
def State.Idle (s : State) : Prop := s.phase = .idle

/-- The launch premise `RegsReset` (R25): the block's own registers as R24 gives them, `PHASE` among them, whatever stands in
those it leaves unspecified. -/
def State.RegsReset (s : State) : Prop :=
  s.phase = .idle ∧ s.txi = 0 ∧ s.rxc = 0 ∧ s.att = 0 ∧ s.op = 0 ∧ s.status = .ok ∧ s.rvalid = false ∧ s.crc = 0xFF

/-- The launch premise `TxEmpty` (R25). The fourth, `RxAny`, asks nothing of `RXQ`. -/
def State.TxEmpty (s : State) : Prop := s.txq = []

/-- A run is over (R110): every command has been issued and the last operation has completed. -/
def State.RunOver (s : State) : Prop := s.program = [] ∧ s.phase = .idle

/-! ## Damage on the wire -/

/-- A frame with one bit of one byte changed. -/
def flipBit (f : Buffer) (i : Fin frameLen) (j : Fin 8) : Buffer :=
  writeByte f i (readByte f i ^^^ BitVec.twoPow 8 j)

/-- A frame whose bytes 1 to 10 are changed by an 80-bit error pattern, byte 1 in its most significant place (R74). -/
def damageBody (f : Buffer) (e : BitVec 80) : Buffer :=
  Vector.ofFn fun i : Fin frameLen =>
    if 1 ≤ i.val ∧ i.val ≤ 10 then readByte f i ^^^ e.extractLsb' (80 - 8 * i.val) 8 else readByte f i

/-! ## Legal states -/

/-- The counters stay in their ranges (R17, R18, U11). -/
def State.InRange (s : State) : Prop :=
  s.txi.toNat ≤ frameLen ∧ s.rxc.toNat ≤ frameLen ∧ s.att.toNat ≤ s.params.maxAttempts.toNat

/-- One of the four link operations (R53). -/
def IsLinkOp (op : BitVec 4) : Prop := op = opFrmSend ∨ op = opFrmRecv ∨ op = opFrmRsync ∨ op = opFrmFlush

/-- `OP`, `STATUS`, `RVALID` and `ATT` go with `PHASE`: idle, `OP` and `STATUS` are those of the last link operation
(R19, R20), or both zero since reset; in `TX` the operation is a send; in `RX` it is a receive, nothing is valid yet
(R21), and a resynchronisation has attempts left (R104). -/
def State.ControlFits (s : State) : Prop :=
  match s.phase with
  | .idle => (s.op = 0 ∧ s.status = .ok) ∨ (IsLinkOp s.op ∧ statusPossible s.op s.status.code = true)
  | .tx => s.op = opFrmSend
  | .rx => s.rvalid = false ∧
      (s.op = opFrmRecv ∨ (s.op = opFrmRsync ∧ s.att.toNat < s.params.maxAttempts.toNat))

/-- While `RVALID = 1` the result registers are the frame in `RXBUF` (R11, R14, R104; R83). -/
def State.ResultFits (s : State) : Prop :=
  s.rvalid = true → s.rxbuf = encodeFrame s.params s.typeRx s.payloadRx

/-- All bytes handed to the transport and not lost: those that have left, then those that wait (R31). -/
def State.txStream (s : State) : List Byte := s.wire ++ s.txq

/-- While a send is in progress `TXBUF` is an encoded frame and the stream ends with its first `TXI` bytes (R13, R97). -/
def State.SendFits (s : State) : Prop :=
  s.phase = .tx →
    (∃ t p, s.txbuf = encodeFrame s.params t p) ∧
    ∃ before, s.txStream = before ++ s.txbuf.toList.take s.txi.toNat

/-- The response `Host` took in an event, if it took one. -/
def HostEvent.toResponse : HostEvent → Option Response
  | .response r => some r
  | .register _ _ => none

/-- All responses the block has sent since reset, oldest first: those `Host` has taken, then those that wait. -/
def State.responses (s : State) : List Response := s.hostLog.filterMap HostEvent.toResponse ++ s.rspq

/-- Every response names a defined operation and an outcome that operation can complete with (R54, R121). -/
def State.ResponsesFit (s : State) : Prop :=
  ∀ r ∈ s.responses, statusPossible r.op r.status = true

/-- The legal states. -/
structure State.Inv (s : State) : Prop where
  inRange : s.InRange
  controlFits : s.ControlFits
  resultFits : s.ResultFits
  sendFits : s.SendFits
  responsesFit : s.ResponsesFit

/-- The outcome an attempt ends with when its window does not decode (R81, R104). -/
def Verdict.FailsWith (v : Verdict) (r : Status) : Prop :=
  (v = .badFraming ∧ r = .badFraming) ∨ (v = .badChecksum ∧ r = .badChecksum)

/-! ## Operations under way -/

/-- A send of `(t, p)` is in progress and `before` was in the transmit stream when it was issued (R97). -/
structure SendUnderWay (before : List Byte) (t : Byte) (p : Payload) (s : State) : Prop where
  phase : s.phase = .tx
  op : s.op = opFrmSend
  txbuf : s.txbuf = encodeFrame s.params t p
  txi : s.txi.toNat ≤ frameLen
  stream : s.txStream = before ++ s.txbuf.toList.take s.txi.toNat

/-- The send has completed `OK`: everything is on the wire, the frame last (R96, R45). -/
def SendDone (before : List Byte) (t : Byte) (p : Payload) (s : State) : Prop :=
  s.phase = .idle ∧ s.status = .ok ∧ s.txq = [] ∧ s.wire = before ++ (encodeFrame s.params t p).toList

/-- The send has completed `IO_FAIL`: some prefix of what was handed over remains, `TXBUF` still holds the frame
(R98). -/
def SendFailed (before : List Byte) (t : Byte) (p : Payload) (s : State) : Prop :=
  s.phase = .idle ∧ s.status = .ioFail ∧ s.txStream <+: before ++ (encodeFrame s.params t p).toList ∧
    s.txbuf = encodeFrame s.params t p

/-- `TYPE_RX` and `PAYLOAD_RX` hold this pair. -/
def State.Results (old : Byte × Payload) (s : State) : Prop := s.typeRx = old.1 ∧ s.payloadRx = old.2

/-- A `FRM.RECV` is in progress, `old` stood in the result registers when it was issued and still does, and `arrived` is what
its window is taken from: the bytes already taken, then those that wait (R100, R101). -/
structure RecvUnderWay (old : Byte × Payload) (arrived : List Byte) (s : State) : Prop where
  phase : s.phase = .rx
  op : s.op = opFrmRecv
  rvalid : s.rvalid = false
  results : s.Results old
  rxc : s.rxc.toNat ≤ frameLen
  stream : s.rxbuf.toList.take s.rxc.toNat ++ s.rxq = arrived

/-- What a completed `FRM.RECV` leaves for the verdict on its window: the frame in the result registers, or the registers as
they were (R104, R122). -/
def RecvVerdict (old : Byte × Payload) (v : Verdict) (s : State) : Prop :=
  s.status = v.outcome ∧
    match v with
    | .ok t p => s.rvalid = true ∧ s.Results (t, p)
    | .badFraming => s.rvalid = false ∧ s.Results old
    | .badChecksum => s.rvalid = false ∧ s.Results old

/-- The receive has completed on its window, the next twelve bytes of the stream; the rest still waits (R99, R100). -/
def RecvDecoded (old : Byte × Payload) (arrived : List Byte) (s : State) : Prop :=
  s.phase = .idle ∧ ∃ window : Buffer,
    window.toList = arrived.take frameLen ∧ s.rxq = arrived.drop frameLen ∧
    RecvVerdict old (decodeFrame s.params window) s

/-- The receive has ended without a window: starved, or by a failure of the transport; the bytes taken are lost and the
result registers are as they were (R102, R103). -/
def RecvCutShort (old : Byte × Payload) (arrived : List Byte) (s : State) : Prop :=
  s.phase = .idle ∧ s.rvalid = false ∧ s.Results old ∧
    ((s.status = .timeout ∧ arrived.length < frameLen ∧ s.rxq = []) ∨
     (s.status = .ioFail ∧ s.rxc.toNat < frameLen ∧ s.rxq = arrived.drop s.rxc.toNat))

/-! ## What no rule reads -/

/-- Two states that differ at most in contents no rule reads: `TXBUF` outside a send (R13), the bytes of `RXBUF` a window
has not reached (R14), and the result registers while `RVALID = 0` (R11). -/
structure AgreeUpToStale (s t : State) : Prop where
  same : t = { s with txbuf := t.txbuf, rxbuf := t.rxbuf, typeRx := t.typeRx, payloadRx := t.payloadRx }
  txbuf : s.phase = .tx → t.txbuf = s.txbuf
  rxbuf : s.phase = .rx → t.rxbuf.toList.take s.rxc.toNat = s.rxbuf.toList.take s.rxc.toNat
  result : s.rvalid = true → t.typeRx = s.typeRx ∧ t.payloadRx = s.payloadRx

/-! ## How far an operation has to go (R109) -/

/-- The number of `Framer` steps the operation in progress can still take: `TXI`, `RXC` and `ATT` are bounded and every
cycle of the sequencer raises one of them (R108, R109). -/
def State.framerBudget (s : State) : Nat :=
  match s.phase with
  | .idle => 0
  | .tx => frameLen - s.txi.toNat + 1
  | .rx =>
    (if s.op = opFrmRsync then (s.params.maxAttempts.toNat - s.att.toNat - 1) * (frameLen + 1) else 0)
      + (frameLen - s.rxc.toNat) + 1

end Sys2Proof.Machine
end

