-- ==== Sys2Proof/Certificates/Slice0/Obligations.lean ====
section
/-!
DEFINITION. The statements for the provers. Each docstring names the rule of spec/ it formalises. A response field the
spec calls not meaningful (30_encoding.md R54) stands as an existential: the statement holds whatever it is.
-/

open Sys2Proof Sys2Proof.Machine

/-! ## The CRC family -/

/-- R69, `CRC.INIT`: selected by code 0x1 with any ignored fields, accepted only when `BUSY = 0`, and then `CRC` is 0xFF,
one response with status 0 is sent and nothing else changes. -/
def Obligations.CrcInitSetsTheRegister : Prop :=
  (∀ s : State, s.busy = false → ∃ a d, exec .crcInit s =
    .next { s with crc := 0xFF, rspq := s.rspq ++ [⟨0x1, 0, a, d⟩], draws := s.draws + 1 }) ∧
  (∀ s t : State, exec .crcInit s = .next t → s.busy = false) ∧
  (∀ (a : Byte) (d : Payload), decodeCmd (cmdWord 0x1 a d) = .ok .crcInit)

/-- R70, `CRC.UPD a`: `CRC` becomes `CrcStep(CRC, a)`; a zero byte leaves the register alone only when it is zero. -/
def Obligations.CrcUpdFeedsOneByte : Prop :=
  (∀ (x : Byte) (s : State), s.busy = false → ∃ a d, exec (.crcUpd x) s =
    .next { s with crc := crcStep s.crc x, rspq := s.rspq ++ [⟨0x2, 0, a, d⟩], draws := s.draws + 1 }) ∧
  (∀ (x : Byte) (s t : State), exec (.crcUpd x) s = .next t → s.busy = false) ∧
  (∀ (x : Byte) (d : Payload), decodeCmd (cmdWord 0x2 x d) = .ok (.crcUpd x)) ∧
  (∀ c : Byte, crcStep c 0 = c ↔ c = 0) ∧
  State.reset.crc = 0xFF ∧ crcStep 0xFF 0x31 = 0x93

/-- R71, `CRC.GET -> a`: the response carries `CRC xor 0xFF`; the register and all else stay. -/
def Obligations.CrcGetReportsTheChecksum : Prop :=
  (∀ s : State, s.busy = false → ∃ d, exec .crcGet s =
    .next { s with rspq := s.rspq ++ [⟨0x3, 0, s.crc ^^^ 0xFF, d⟩], draws := s.draws + 1 }) ∧
  (∀ s t : State, exec .crcGet s = .next t → s.busy = false) ∧
  (∀ (a : Byte) (d : Payload), decodeCmd (cmdWord 0x3 a d) = .ok .crcGet) ∧
  (∀ s t : State, s.crc = 0xFF → exec .crcGet s = .next t → ∃ d, t.rspq = s.rspq ++ [⟨0x3, 0, 0x00, d⟩])

/-- R60, the pseudo-operation `CRC.BLK`: `n + 2` issued commands leave `CrcRaw` in the register and return `CRC8`, each
command answered once, whatever stands in their ignored fields. -/
def Obligations.CrcBlkReturnsTheChecksumOfItsBytes : Prop :=
  ∀ (s : State) (m : List (Byte × Payload)) (a0 a1 : Byte) (d0 d1 : Payload) (more : List CmdWord) (later : List Turn),
    s.busy = false →
    s.program = cmdWord 0x1 a0 d0 :: (m.map fun x => cmdWord 0x2 x.1 x.2) ++ cmdWord 0x3 a1 d1 :: more →
    s.sched = List.replicate (m.length + 2) .host ++ later →
    ∃ (t : State) (before : List Response) (d : Payload), core.run (m.length + 2) s = .next t ∧
      t.crc = crcRaw (m.map Prod.fst) ∧
      t.rspq = s.rspq ++ before ++ [⟨0x3, 0, crc8 (m.map Prod.fst), d⟩] ∧ before.length = m.length + 1 ∧
      t.program = more ∧ t.sched = later ∧ t.busy = false

/-- R66, R67 at the catalogue's check value (R8) and the corner cases of the byte step. -/
def Obligations.ChecksumCheckValue : Prop :=
  crc8 [0x31, 0x32, 0x33, 0x34, 0x35, 0x36, 0x37, 0x38, 0x39] = 0x4B ∧ crc8 [] = 0x00 ∧
  crc8 [0x06, 0x01, 0x23, 0x45, 0x67, 0x89, 0xAB, 0xCD, 0xEF] = 0xFB ∧
  crcStep 0x00 0x01 = 0x1D ∧ crcStep 0x00 0x80 = 0x26 ∧ crcStep 0x5A 0x00 = 0x0C ∧ crcStep 0xFF 0xFF = 0x00

/-- R68, the table form: a byte step depends on `c xor b` only, and the table is the one the spec lists. -/
def Obligations.ByteStepIsTheTable : Prop :=
  let row (r : Nat) : List Byte := (List.range 16).map fun i => crcT (BitVec.ofNat 8 (16 * r + i))
  (∀ c b : Byte, crcStep c b = crcT (c ^^^ b)) ∧
  row 0x0 = [0x00, 0x1D, 0x3A, 0x27, 0x74, 0x69, 0x4E, 0x53, 0xE8, 0xF5, 0xD2, 0xCF, 0x9C, 0x81, 0xA6, 0xBB] ∧
  row 0x1 = [0xCD, 0xD0, 0xF7, 0xEA, 0xB9, 0xA4, 0x83, 0x9E, 0x25, 0x38, 0x1F, 0x02, 0x51, 0x4C, 0x6B, 0x76] ∧
  row 0x2 = [0x87, 0x9A, 0xBD, 0xA0, 0xF3, 0xEE, 0xC9, 0xD4, 0x6F, 0x72, 0x55, 0x48, 0x1B, 0x06, 0x21, 0x3C] ∧
  row 0x3 = [0x4A, 0x57, 0x70, 0x6D, 0x3E, 0x23, 0x04, 0x19, 0xA2, 0xBF, 0x98, 0x85, 0xD6, 0xCB, 0xEC, 0xF1] ∧
  row 0x4 = [0x13, 0x0E, 0x29, 0x34, 0x67, 0x7A, 0x5D, 0x40, 0xFB, 0xE6, 0xC1, 0xDC, 0x8F, 0x92, 0xB5, 0xA8] ∧
  row 0x5 = [0xDE, 0xC3, 0xE4, 0xF9, 0xAA, 0xB7, 0x90, 0x8D, 0x36, 0x2B, 0x0C, 0x11, 0x42, 0x5F, 0x78, 0x65] ∧
  row 0x6 = [0x94, 0x89, 0xAE, 0xB3, 0xE0, 0xFD, 0xDA, 0xC7, 0x7C, 0x61, 0x46, 0x5B, 0x08, 0x15, 0x32, 0x2F] ∧
  row 0x7 = [0x59, 0x44, 0x63, 0x7E, 0x2D, 0x30, 0x17, 0x0A, 0xB1, 0xAC, 0x8B, 0x96, 0xC5, 0xD8, 0xFF, 0xE2] ∧
  row 0x8 = [0x26, 0x3B, 0x1C, 0x01, 0x52, 0x4F, 0x68, 0x75, 0xCE, 0xD3, 0xF4, 0xE9, 0xBA, 0xA7, 0x80, 0x9D] ∧
  row 0x9 = [0xEB, 0xF6, 0xD1, 0xCC, 0x9F, 0x82, 0xA5, 0xB8, 0x03, 0x1E, 0x39, 0x24, 0x77, 0x6A, 0x4D, 0x50] ∧
  row 0xA = [0xA1, 0xBC, 0x9B, 0x86, 0xD5, 0xC8, 0xEF, 0xF2, 0x49, 0x54, 0x73, 0x6E, 0x3D, 0x20, 0x07, 0x1A] ∧
  row 0xB = [0x6C, 0x71, 0x56, 0x4B, 0x18, 0x05, 0x22, 0x3F, 0x84, 0x99, 0xBE, 0xA3, 0xF0, 0xED, 0xCA, 0xD7] ∧
  row 0xC = [0x35, 0x28, 0x0F, 0x12, 0x41, 0x5C, 0x7B, 0x66, 0xDD, 0xC0, 0xE7, 0xFA, 0xA9, 0xB4, 0x93, 0x8E] ∧
  row 0xD = [0xF8, 0xE5, 0xC2, 0xDF, 0x8C, 0x91, 0xB6, 0xAB, 0x10, 0x0D, 0x2A, 0x37, 0x64, 0x79, 0x5E, 0x43] ∧
  row 0xE = [0xB2, 0xAF, 0x88, 0x95, 0xC6, 0xDB, 0xFC, 0xE1, 0x5A, 0x47, 0x60, 0x7D, 0x2E, 0x33, 0x14, 0x09] ∧
  row 0xF = [0x7F, 0x62, 0x45, 0x58, 0x0B, 0x16, 0x31, 0x2C, 0x97, 0x8A, 0xAD, 0xB0, 0xE3, 0xFE, 0xD9, 0xC4]

/-- R73: (a) linearity, (b) the residue 0xC4, and that the two receiver tests accept the same messages. -/
def Obligations.ChecksumLinearityAndResidue : Prop :=
  (∀ m e : List Byte, m.length = e.length → crc8 (List.zipWith (· ^^^ ·) m e) = crc8 m ^^^ crc0 e) ∧
  (∀ m : List Byte, crcRaw (m ++ [crc8 m]) = 0xC4) ∧
  (∀ (m : List Byte) (x : Byte), crcRaw (m ++ [x]) = 0xC4 ↔ x = crc8 m)

/-- R74 (a) to (c), on the ten bytes a receiver checks: every one-bit and every two-bit error pattern and every burst of
up to eight bits changes the verdict on a good frame to `BAD_CHECKSUM`. -/
def Obligations.ChecksumDetectsSmallErrors : Prop :=
  ∀ (c : Params) (t : Byte) (p : Payload),
    (∀ i : Fin 80, decodeFrame c (damageBody (encodeFrame c t p) (BitVec.twoPow 80 i)) = .badChecksum) ∧
    (∀ i j : Fin 80, i ≠ j →
      decodeFrame c (damageBody (encodeFrame c t p) (BitVec.twoPow 80 i ^^^ BitVec.twoPow 80 j)) = .badChecksum) ∧
    (∀ (b : Byte) (k : Fin 73), b ≠ 0 →
      decodeFrame c (damageBody (encodeFrame c t p) (b.setWidth 80 <<< k.val)) = .badChecksum)

/-! ## The frame codec -/

/-- R50, R80: where each byte of `Encode(t, p)` comes from. -/
def Obligations.EncodeLaysOutTheFrame : Prop :=
  ∀ (c : Params) (t : Byte) (p : Payload),
    let f := encodeFrame c t p
    readByte f 0 = c.sof ∧ readByte f 1 = t ∧
    (∀ k : Fin 8, f.toList[k.val + 2]? = some (p.extractLsb' (56 - 8 * k.val) 8)) ∧
    readByte f 10 = crc8 ((f.toList.drop 1).take 9) ∧ readByte f 11 = c.eof

/-- R81, R123 (a): a wrong marker wins whatever the checksum, then a wrong checksum, else the window is accepted with its
own type and payload. -/
def Obligations.DecodeTestsMarkersFirst : Prop :=
  ∀ (c : Params) (f : Buffer),
    (readByte f 0 ≠ c.sof ∨ readByte f 11 ≠ c.eof → decodeFrame c f = .badFraming) ∧
    (readByte f 0 = c.sof → readByte f 11 = c.eof → crc8 ((f.toList.drop 1).take 9) ≠ readByte f 10 →
      decodeFrame c f = .badChecksum) ∧
    (readByte f 0 = c.sof → readByte f 11 = c.eof → crc8 ((f.toList.drop 1).take 9) = readByte f 10 →
      ∃ p, decodeFrame c f = .ok (readByte f 1) p ∧ (be64 p).toList = (f.toList.drop 2).take 8)

/-- R82, the round trip, for every pair and every value of the markers. -/
def Obligations.DecodeOfEncodeIsThePair : Prop :=
  ∀ (c : Params) (t : Byte) (p : Payload), decodeFrame c (encodeFrame c t p) = .ok t p

/-- R83: accepted windows are exactly the encoded frames, and `Encode` is injective. -/
def Obligations.AcceptedWindowsAreEncodedFrames : Prop :=
  (∀ (c : Params) (f : Buffer) (t : Byte) (p : Payload), decodeFrame c f = .ok t p → f = encodeFrame c t p) ∧
  (∀ (c : Params) (t t' : Byte) (p p' : Payload), encodeFrame c t p = encodeFrame c t' p' → t = t' ∧ p = p')

/-- R84: one flipped bit is never accepted, two are never accepted, three can be, with the verdicts the rule gives. -/
def Obligations.CorruptedFrameVerdicts : Prop :=
  (∀ (c : Params) (t : Byte) (p : Payload) (i : Fin frameLen) (j : Fin 8),
    decodeFrame c (flipBit (encodeFrame c t p) i j) =
      if i = 0 ∨ i = 11 then .badFraming else .badChecksum) ∧
  (∀ (c : Params) (t : Byte) (p : Payload) (i i' : Fin frameLen) (j j' : Fin 8), (i, j) ≠ (i', j') →
    decodeFrame c (flipBit (flipBit (encodeFrame c t p) i j) i' j') =
      if i = 0 ∨ i = 11 ∨ i' = 0 ∨ i' = 11 then .badFraming else .badChecksum) ∧
  (∀ c : Params, decodeFrame c
      (flipBit (flipBit (flipBit (encodeFrame c 0x06 0x0123456789ABCDEF) 1 7) 1 4) 5 4) =
    .ok 0x96 0x0123457789ABCDEF)

/-! ## Encodings -/

/-- Decode and encode agree: decoding the encoded word of a well-formed instruction gives it back with every operand, at
the row's own width; and, but for frames and the response to `CRC.INIT`, in whole bytes too (log entry 15). -/
def Obligations.DecodeOfEncodeIsTheInstruction : Prop :=
  ∀ (c : Params) (i : Instr), i.WellFormed c →
    decodeTableWord (encode i).nbits (encode i).bits = some i ∧
    ((encode i).nbits ≠ 96 → (∀ st a d, i ≠ .rsp 0x1 st a d) → decodeTableWord 80 (encode i).bits = some i)

/-- R52, R53, R55: exactly the codes 0x1 to 0x7 select an operation, a reserved code is rejected by its own name, and an
ignored field has no effect. -/
def Obligations.CommandCodesSelectOperations : Prop :=
  (∀ w : CmdWord, (∃ i, decodeCmd w = .ok i) ↔ 1 ≤ (cmdOp w).toNat ∧ (cmdOp w).toNat ≤ 7) ∧
  (∀ w : CmdWord, (cmdOp w).toNat = 0 ∨ 8 ≤ (cmdOp w).toNat → decodeCmd w = .error (.reservedOp (cmdOp w))) ∧
  (∀ (op : BitVec 4) (a a' : Byte) (d d' : Payload), op ≠ 0x2 → op ≠ 0x4 →
    decodeCmd (cmdWord op a d) = decodeCmd (cmdWord op a' d')) ∧
  (∀ (a : Byte) (d d' : Payload), decodeCmd (cmdWord 0x2 a d) = decodeCmd (cmdWord 0x2 a d'))

/-- Words written out from the spec's layouts (R50, R52, R53, R54), one of each row of the table. That a word of 80 bits below
2^76 is read as a command word is the model's choice (log entry 15); the clauses at width 80 rest on it, and the last one,
that 0x8000000000000000000 is refused there, wholly does: the same number is the response to `CRC.INIT`. -/
def Obligations.WrittenOutWordsDecode : Prop :=
  decodeTableWord 76 0x1000000000000000000 = some .crcInit ∧
  decodeTableWord 76 0x231FFFFFFFFFFFFFFFF = some (.crcUpd 0x31) ∧
  decodeTableWord 76 0x3000000000000000000 = some .crcGet ∧
  decodeTableWord 80 0x4060123456789ABCDEF = some (.frmSend 0x06 0x0123456789ABCDEF) ∧
  decodeTableWord 80 0x5000000000000000000 = some .frmRecv ∧
  decodeTableWord 80 0x6000000000000000000 = some .frmRsync ∧
  decodeTableWord 80 0x7000000000000000000 = some .frmFlush ∧
  decodeTableWord 80 0x8000000000000000000 = none ∧
  decodeTableWord 96 0xA5060123456789ABCDEFFB03 = some (.frame 0xA5 0x06 0x0123456789ABCDEF 0xFB 0x03) ∧
  decodeTableWord 79 0x28060123456789ABCDEF = some (.rsp 0x5 0x0 0x06 0x0123456789ABCDEF)

/-- R55: a command word with a reserved code is refused, by its name, and is no step. -/
def Obligations.ReservedCodeIsRefused : Prop :=
  ∀ (s : State) (w : CmdWord) (more : List CmdWord), s.program = w :: more →
    (cmdOp w).toNat = 0 ∨ 8 ≤ (cmdOp w).toNat →
    step (s.scheduled .host) = .refused (.reserved (.reservedOp (cmdOp w)))

/-! ## The link family: issue -/

/-- R95 (a) and (b): an operation is accepted only when `BUSY = 0`, and then always; `CRC.INIT`, `CRC.UPD`, `CRC.GET` and
`FRM.FLUSH` leave the block idle with one response more, the other three leave it busy with none. A busy block refuses
them all (the model's choice, log entry 9). -/
def Obligations.OperationsAreAcceptedWhenIdle : Prop :=
  ∀ (i : Instr) (s : State), (∀ sof t p chk eof, i ≠ .frame sof t p chk eof) → (∀ op st a d, i ≠ .rsp op st a d) →
    (s.busy = true → exec i s = .refused .busy) ∧
    (s.busy = false → ∃ t, exec i s = .next t ∧
      (i = .frmRecv ∨ i = .frmRsync ∨ (∃ ty p, i = .frmSend ty p) → t.busy = true ∧ t.responses = s.responses) ∧
      (i = .crcInit ∨ (∃ x, i = .crcUpd x) ∨ i = .crcGet ∨ i = .frmFlush →
        t.busy = false ∧ ∃ r, t.responses = s.responses ++ [r]))

/-- R106 and R101, the issue steps of the two receive operations, and R97's of `FRM.SEND`: what each writes, and that
nothing else changes. -/
def Obligations.LinkOperationsIssue : Prop :=
  (∀ (t : Byte) (p : Payload) (s : State), s.busy = false → exec (.frmSend t p) s =
    .next { s with op := 0x4, txbuf := encodeFrame s.params t p, txi := 0, phase := .tx }) ∧
  (∀ s : State, s.busy = false → exec .frmRecv s =
    .next { s with op := 0x5, rvalid := false, rxc := 0, phase := .rx }) ∧
  (∀ s : State, s.busy = false → exec .frmRsync s =
    .next { s with op := 0x6, att := 0, rvalid := false, rxc := 0, phase := .rx })

/-- R107, `FRM.FLUSH`: the input is emptied, `OP` and `STATUS` written, one response sent, and nothing else changes. -/
def Obligations.FlushEmptiesTheInput : Prop :=
  (∀ s : State, s.busy = false → ∃ a d, exec .frmFlush s =
    .next { s with op := 0x7, rxq := [], status := .ok, rspq := s.rspq ++ [⟨0x7, 0, a, d⟩], draws := s.draws + 1 }) ∧
  (∀ s t : State, exec .frmFlush s = .next t → s.busy = false ∧ t.busy = false) ∧
  (∀ (a : Byte) (d : Payload), decodeCmd (cmdWord 0x7 a d) = .ok .frmFlush)

/-! ## The link family: the steps of the sequencer -/

/-- R97, `put` and `drain`: what each does, and that nothing is enabled while the stream has not drained. -/
def Obligations.SendPutsBytesThenDrains : Prop :=
  (∀ (s : State) (h : s.txi.toNat < 12), s.phase = .tx → step (s.scheduled .framer) =
    .next { s with txq := s.txq ++ [readByte s.txbuf ⟨s.txi.toNat, h⟩], txi := s.txi + 1 }) ∧
  (∀ s : State, s.phase = .tx → s.txi.toNat = 12 → s.txq = [] → ∃ a d, step (s.scheduled .framer) =
    .next { s with status := .ok, phase := .idle, rspq := s.rspq ++ [⟨s.op, 0, a, d⟩], draws := s.draws + 1 }) ∧
  (∀ s : State, s.phase = .tx → s.txi.toNat = 12 → s.txq ≠ [] → step (s.scheduled .framer) = .refused .notEnabled)

/-- R98: a failure while sending cuts `TXQ` to a prefix, which can be any, and completes with `IO_FAIL`; `TXBUF`, `TXI`
and all else stay. -/
def Obligations.SendFailureKeepsAPrefix : Prop :=
  (∀ (s : State) (keep : Nat), s.phase = .tx → ∃ a d, step (s.scheduled (.link (.fail keep))) =
    .next { s with txq := s.txq.take keep, status := .ioFail, phase := .idle,
                   rspq := s.rspq ++ [⟨s.op, 4, a, d⟩], draws := s.draws + 1 }) ∧
  (∀ (s : State) (kept : List Byte), kept <+: s.txq → ∃ keep, s.txq.take keep = kept)

/-- R101, `take`: the oldest byte of the stream goes to `RXBUF[RXC]`; every other byte of `RXBUF`, and all else, stays. -/
def Obligations.TakeMovesTheOldestByte : Prop :=
  (∀ (s : State) (h : s.rxc.toNat < 12) (b : Byte) (rest : List Byte), s.phase = .rx → s.rxq = b :: rest →
    ∃ t : State, step (s.scheduled .framer) = .next t ∧
      readByte t.rxbuf ⟨s.rxc.toNat, h⟩ = b ∧
      (∀ i : Fin frameLen, i.val ≠ s.rxc.toNat → readByte t.rxbuf i = readByte s.rxbuf i) ∧
      t = { s with rxq := rest, rxc := s.rxc + 1, rxbuf := t.rxbuf }) ∧
  (∀ s : State, s.phase = .rx → s.rxc.toNat < 12 → s.rxq = [] → step (s.scheduled .framer) = .refused .notEnabled)

/-- R102: a timeout is taken exactly when the attempt is starved; it completes with `TIMEOUT` and changes nothing else,
so the bytes taken stay in `RXBUF` and do not return to `RXQ`. -/
def Obligations.TimeoutEndsAStarvedAttempt : Prop :=
  ∀ s : State,
    (s.phase = .rx → s.rxc.toNat < 12 → s.rxq = [] → ∃ a d, step (s.scheduled (.link .timeout)) =
      .next { s with status := .timeout, phase := .idle, rspq := s.rspq ++ [⟨s.op, 3, a, d⟩], draws := s.draws + 1 }) ∧
    (¬(s.phase = .rx ∧ s.rxc.toNat < 12 ∧ s.rxq = []) → step (s.scheduled (.link .timeout)) = .refused .notEnabled)

/-- R103: a failure while receiving is taken exactly while the window is not full; it completes with `IO_FAIL` and changes
nothing else. -/
def Obligations.ReceiveFailureEndsTheAttempt : Prop :=
  ∀ (s : State) (keep : Nat), s.phase = .rx →
    (s.rxc.toNat < 12 → ∃ a d, step (s.scheduled (.link (.fail keep))) =
      .next { s with status := .ioFail, phase := .idle, rspq := s.rspq ++ [⟨s.op, 4, a, d⟩], draws := s.draws + 1 }) ∧
    (12 ≤ s.rxc.toNat → step (s.scheduled (.link (.fail keep))) = .refused .notEnabled)

/-- R104, the check step on a window that decodes: both receive operations record and report it. -/
def Obligations.CheckReportsAnAcceptedFrame : Prop :=
  ∀ (s : State) (t : Byte) (p : Payload), s.phase = .rx → s.rxc.toNat = 12 → s.op = 0x5 ∨ s.op = 0x6 →
    decodeFrame s.params s.rxbuf = .ok t p →
    step (s.scheduled .framer) =
      .next { s with typeRx := t, payloadRx := p, rvalid := true, status := .ok, phase := .idle,
                     rspq := s.rspq ++ [⟨s.op, 0, t, p⟩], draws := s.draws + 1 }

/-- R104, the check step on a window that does not decode: `FRM.RECV` completes with the outcome; `FRM.RSYNC` counts the
attempt and tries again after a flush, or completes at the bound, with a flush if `FLUSH_ON_FINAL`. -/
def Obligations.CheckHandlesABadWindow : Prop :=
  ∀ (s : State) (r : Status), s.phase = .rx → s.rxc.toNat = 12 →
    (decodeFrame s.params s.rxbuf).FailsWith r →
    (s.op = 0x5 → ∃ a d, step (s.scheduled .framer) =
      .next { s with status := r, phase := .idle, rspq := s.rspq ++ [⟨0x5, r.code, a, d⟩], draws := s.draws + 1 }) ∧
    (s.op = 0x6 → (s.att + 1).toNat ≠ s.params.maxAttempts.toNat → step (s.scheduled .framer) =
      .next { s with att := s.att + 1, rxq := [], rxc := 0 }) ∧
    (s.op = 0x6 → (s.att + 1).toNat = s.params.maxAttempts.toNat → ∃ a d, step (s.scheduled .framer) =
      .next { s with att := s.att + 1, rxq := if s.params.flushOnFinal then [] else s.rxq, status := r, phase := .idle,
                     rspq := s.rspq ++ [⟨0x6, r.code, a, d⟩], draws := s.draws + 1 })

/-- R123 (b): once the twelfth byte is taken an attempt can no longer time out or fail, and before that the check is not
enabled: the `Framer` step of an incomplete window stays in `RX` and answers nothing. -/
def Obligations.TimeoutAndDecodeNeverCompete : Prop :=
  ∀ s : State, s.phase = .rx →
    (s.rxc.toNat = 12 → step (s.scheduled (.link .timeout)) = .refused .notEnabled ∧
      ∀ keep, step (s.scheduled (.link (.fail keep))) = .refused .notEnabled) ∧
    (s.rxc.toNat < 12 → ∀ t, step (s.scheduled .framer) = .next t →
      t.phase = .rx ∧ t.rxc = s.rxc + 1 ∧ t.responses = s.responses)

/-- R37, `deliver` and `wire_out`: always enabled, and enabled when `TXQ` holds a byte; each moves its byte and changes
nothing else. -/
def Obligations.LinkMovesBytes : Prop :=
  (∀ (s : State) (b : Byte), step (s.scheduled (.link (.deliver b))) = .next { s with rxq := s.rxq ++ [b] }) ∧
  (∀ (s : State) (b : Byte) (rest : List Byte), s.txq = b :: rest →
    step (s.scheduled (.link .wireOut)) = .next { s with wire := s.wire ++ [b], txq := rest }) ∧
  (∀ s : State, s.txq = [] → step (s.scheduled (.link .wireOut)) = .refused .notEnabled)

/-! ## The two rows that are no operations of `Host` -/

/-- A frame word on the wire, R50 with R37 and R59 (log entry 13): its twelve bytes arrive in order and nothing else
changes, exactly as twelve `deliver` steps would do it. -/
def Obligations.FrameArrivesAsTwelveDeliveries : Prop :=
  ∀ (sof t : Byte) (p : Payload) (chk eof : Byte) (s : State),
    exec (.frame sof t p chk eof) s = .next { s with rxq := s.rxq ++ (frameBytes sof t p chk eof).toList } ∧
    core.run 12 { s with sched := ((frameBytes sof t p chk eof).toList.map fun b => .link (.deliver b)) ++ s.sched } =
      exec (.frame sof t p chk eof) s

/-- A response word at the host port, R54 (log entry 14): `Host` takes the oldest response, which is this word; any other
word is refused. -/
def Obligations.ResponseIsTakenByHost : Prop :=
  (∀ (op : BitVec 4) (st : BitVec 3) (a : Byte) (d : Payload) (s : State) (rest : List Response),
    s.rspq = ⟨op, st, a, d⟩ :: rest →
    exec (.rsp op st a d) s =
      .next { s with rspq := rest, hostLog := s.hostLog ++ [.response ⟨op, st, a, d⟩] }) ∧
  (∀ (op : BitVec 4) (st : BitVec 3) (a : Byte) (d : Payload) (s : State),
    s.rspq.head? ≠ some ⟨op, st, a, d⟩ → exec (.rsp op st a d) s = .refused .noSuchResponse)

/-- R11, R15: a register read by `Host` changes nothing of the block, returns the register (the result registers while
`RVALID = 1`), and while `BUSY = 1` only `BUSY` can be read. -/
def Obligations.HostReadsRegisters : Prop :=
  (∀ (s : State) (r : HostReg), r = .busy ∨ s.busy = false → ∃ v,
    step (s.scheduled (.read r)) =
      .next { s with hostLog := s.hostLog ++ [.register r v], draws := s.draws + 1 } ∧
    match r with
    | .typeRx => s.rvalid = true → v = s.typeRx.setWidth 64
    | .payloadRx => s.rvalid = true → v = s.payloadRx
    | .att => v = s.att.setWidth 64
    | .status => v = s.status.code.setWidth 64
    | .rvalid => v = if s.rvalid then 1 else 0
    | .busy => v = if s.busy then 1 else 0) ∧
  (∀ (s : State) (r : HostReg), r ≠ .busy → s.busy = true → step (s.scheduled (.read r)) = .refused .busy)

/-! ## The step of the machine -/

/-- A step runs the decoded instruction: the command at the head of `Host`'s program, a frame word on the wire and the
oldest response each run as `exec` says, with the turn and the word used up. The model's choices: that `Host`'s turn comes
by default on an idle block with no schedule (log entry 6, the second clause), and what a frame word and a response word
mean (log entries 13 and 14, the last two clauses). -/
def Obligations.StepRunsTheDecodedInstruction : Prop :=
  (∀ (s : State) (w : CmdWord) (more : List CmdWord) (i : Instr), s.program = w :: more → decodeCmd w = .ok i →
    step (s.scheduled .host) = exec i { s with program := more }) ∧
  (∀ (s : State) (w : CmdWord) (more : List CmdWord) (i : Instr), s.program = w :: more → decodeCmd w = .ok i →
    s.sched = [] → s.busy = false → step s = exec i { s with program := more }) ∧
  (∀ (s : State) (w : FrameWord), step (s.scheduled (.frame w)) = exec (decodeFrameWord w) s) ∧
  (∀ (s : State) (r : Response) (rest : List Response), s.rspq = r :: rest →
    step (s.scheduled .response) = exec (.rsp r.op r.status r.a r.d) s)

/-- A word of the table placed with `withFetchWord` is what the very next step runs, and nothing else of the state is
touched (log entries 15, 16). -/
def Obligations.FetchedWordRunsNext : Prop :=
  ∀ (s : State) (nbits w : Nat) (i : Instr), decodeTableWord nbits w = some i →
    match i with
    | .rsp op st a d => step (s.withFetchWord nbits w) = exec i { s with rspq := ⟨op, st, a, d⟩ :: s.rspq }
    | _ => step (s.withFetchWord nbits w) = exec i s

/-- R108, the transition table, complete: in every legal state each row's step is enabled under the row's condition and moves
`PHASE` and the counters as the row says; a step of `Host`'s issue, of `Framer`, `timeout` or `fail` is taken only under a
row's condition; and the remaining turns leave `PHASE` and the counters alone. -/
def Obligations.SequencerFollowsTheTable : Prop :=
  ∀ s : State, s.Inv →
    (∀ (w : CmdWord) (more : List CmdWord) (i : Instr), s.phase = .idle → s.program = w :: more → decodeCmd w = .ok i →
      (i = .crcInit ∨ (∃ x, i = .crcUpd x) ∨ i = .crcGet ∨ i = .frmFlush →
        MovesTo (step (s.scheduled .host)) .idle s.txi s.rxc s.att) ∧
      ((∃ ty p, i = .frmSend ty p) → MovesTo (step (s.scheduled .host)) .tx 0 s.rxc s.att) ∧
      (i = .frmRecv → MovesTo (step (s.scheduled .host)) .rx s.txi 0 s.att) ∧
      (i = .frmRsync → MovesTo (step (s.scheduled .host)) .rx s.txi 0 0)) ∧
    (s.phase = .tx →
      (s.txi.toNat < 12 → MovesTo (step (s.scheduled .framer)) .tx (s.txi + 1) s.rxc s.att) ∧
      (s.txi.toNat = 12 → s.txq = [] → MovesTo (step (s.scheduled .framer)) .idle s.txi s.rxc s.att) ∧
      (∀ keep, MovesTo (step (s.scheduled (.link (.fail keep)))) .idle s.txi s.rxc s.att)) ∧
    (s.phase = .rx → s.rxc.toNat < 12 →
      (s.rxq ≠ [] → MovesTo (step (s.scheduled .framer)) .rx s.txi (s.rxc + 1) s.att) ∧
      (s.rxq = [] → MovesTo (step (s.scheduled (.link .timeout))) .idle s.txi s.rxc s.att) ∧
      (∀ keep, MovesTo (step (s.scheduled (.link (.fail keep)))) .idle s.txi s.rxc s.att)) ∧
    (s.phase = .rx → s.rxc.toNat = 12 →
      (s.op = 0x5 → MovesTo (step (s.scheduled .framer)) .idle s.txi s.rxc s.att) ∧
      (s.op = 0x6 → (decodeFrame s.params s.rxbuf).outcome = .ok →
        MovesTo (step (s.scheduled .framer)) .idle s.txi s.rxc s.att) ∧
      (s.op = 0x6 → (decodeFrame s.params s.rxbuf).outcome ≠ .ok → s.att.toNat + 1 = s.params.maxAttempts.toNat →
        MovesTo (step (s.scheduled .framer)) .idle s.txi s.rxc (s.att + 1)) ∧
      (s.op = 0x6 → (decodeFrame s.params s.rxbuf).outcome ≠ .ok → s.att.toNat + 1 < s.params.maxAttempts.toNat →
        MovesTo (step (s.scheduled .framer)) .rx s.txi 0 (s.att + 1))) ∧
    (∀ (n : Turn) (t : State), step (s.scheduled n) = .next t →
      match n with
      | .host => s.phase = .idle ∧ ∃ w more i, s.program = w :: more ∧ decodeCmd w = .ok i
      | .framer =>
        (s.phase = .tx ∧ (s.txi.toNat < 12 ∨ (s.txi.toNat = 12 ∧ s.txq = []))) ∨
        (s.phase = .rx ∧ ((s.rxc.toNat < 12 ∧ s.rxq ≠ []) ∨ (s.rxc.toNat = 12 ∧ (s.op = 0x5 ∨ s.op = 0x6))))
      | .link .timeout => s.phase = .rx ∧ s.rxc.toNat < 12 ∧ s.rxq = []
      | .link (.fail _) => s.phase = .tx ∨ (s.phase = .rx ∧ s.rxc.toNat < 12)
      | .link .wireOut | .link (.deliver _) | .response | .read _ | .frame _ =>
        t.phase = s.phase ∧ t.txi = s.txi ∧ t.rxc = s.rxc ∧ t.att = s.att)

/-- R129, R110: an idle block with nothing left to issue stays as it is, for any length of time (log entry 7). -/
def Obligations.IdleBlockSurvivesIdling : Prop :=
  ∀ (s : State) (n : Nat), s.busy = false → s.program = [] → s.sched = [] → core.run n s = .next s

/-! ## Reset and the legal states -/

/-- R24: what the spec gives the registers after reset. -/
def Obligations.ResetRegisters : Prop :=
  let s := State.reset
  s.phase = .idle ∧ s.busy = false ∧ s.txi = 0 ∧ s.rxc = 0 ∧ s.att = 0 ∧ s.op = 0 ∧ s.status = .ok ∧
    s.status.code = 0 ∧ s.rvalid = false ∧ s.crc = 0xFF ∧ s.wire = []

/-- The state after reset is legal. That no response waits or has been taken at reset is the model's choice (log entry
24). -/
def Obligations.ResetIsLegal : Prop := State.reset.Inv

/-- R25: every launch state is legal, whatever bytes `RXQ` holds and whatever stands in the registers R24 leaves
unspecified. -/
def Obligations.LaunchStatesAreLegal : Prop :=
  (∀ s : State, s.Idle → s.RegsReset → s.TxEmpty → s.responses = [] → s.Inv) ∧
  State.reset.Idle ∧ State.reset.RegsReset ∧ State.reset.TxEmpty ∧ State.reset.responses = []

/-- Every step keeps the state legal (R17, R18, R20, R21, R121, U11): the counters stay in range, `OP`, `STATUS`, `RVALID`
and `ATT` go with `PHASE`, a valid result is the frame in `RXBUF`, a frame being sent stands at the end of the transmit
stream, and every response is one its operation can give. -/
def Obligations.EveryStepKeepsTheStateLegal : Prop :=
  ∀ s t : State, s.Inv → step s = .next t → t.Inv

/-! ## Contracts of whole operations -/

/-- R96, R97, R98, R45: from its issue a send of `(t, p)` stays under way, with `before` and the bytes handed over making
up the transmit stream, until it completes `OK` with exactly `before` and the twelve bytes of `Encode(t, p)` on the wire,
or `IO_FAIL` with some prefix of them left. -/
def Obligations.SendPutsItsFrameOnTheWire : Prop :=
  (∀ (t : Byte) (p : Payload) (s u : State), exec (.frmSend t p) s = .next u → SendUnderWay s.txStream t p u) ∧
  (∀ (before : List Byte) (t : Byte) (p : Payload) (s u : State), SendUnderWay before t p s → step s = .next u →
    SendUnderWay before t p u ∨ SendDone before t p u ∨ SendFailed before t p u)

/-- R99, R100, R101 to R104: from its issue a `FRM.RECV` stays under way on the bytes that waited and those that arrive
since, with the result registers as they were, until it completes with the verdict on exactly the first twelve of them, the
rest still waiting, or is cut short by a timeout or a failure before the twelfth. `TYPE_RX` and `PAYLOAD_RX` are written
exactly when the verdict is `OK`. -/
def Obligations.RecvTakesTheNextTwelveBytes : Prop :=
  (∀ s u : State, exec .frmRecv s = .next u → RecvUnderWay (s.typeRx, s.payloadRx) s.rxq u) ∧
  (∀ (old : Byte × Payload) (arrived : List Byte) (s u : State), RecvUnderWay old arrived s → step s = .next u →
    RecvUnderWay old (arrived ++ s.arriving) u ∨ RecvDecoded old arrived u ∨ RecvCutShort old arrived u)

/-- R105: what the check step of `FRM.RSYNC` does is what the host-side loop of single operations does, seen without the
intermediate responses: an accepted frame as `FRM.RECV`; a bad window as `FRM.RECV`, then `FRM.FLUSH`, then `FRM.RECV`
again; at the bound as `FRM.RECV`, then `FRM.FLUSH` if `FLUSH_ON_FINAL`. -/
def Obligations.RsyncIsTheLoopOfReceives : Prop :=
  ∀ s : State, s.Inv → s.phase = .rx → s.rxc.toNat = 12 → s.op = 0x6 →
    ∃ a : State, step ({ s with op := 0x5 }.scheduled .framer) = .next a ∧
      (∀ t p, decodeFrame s.params s.rxbuf = .ok t p →
        step (s.scheduled .framer) =
          .next { a with op := 0x6, rspq := s.rspq ++ [⟨0x6, 0, t, p⟩] }) ∧
      (∀ r, (decodeFrame s.params s.rxbuf).FailsWith r →
        ∃ b c : State, exec .frmFlush a = .next b ∧ exec .frmRecv b = .next c ∧
          ((s.att + 1).toNat ≠ s.params.maxAttempts.toNat →
            step (s.scheduled .framer) =
              .next { c with op := 0x6, att := s.att + 1, status := s.status, rspq := s.rspq, draws := s.draws }) ∧
          ((s.att + 1).toNat = s.params.maxAttempts.toNat →
            ∃ x y, step (s.scheduled .framer) =
              .next { (if s.params.flushOnFinal then b else a) with
                      op := 0x6, att := s.att + 1, status := r, rspq := s.rspq ++ [⟨0x6, r.code, x, y⟩],
                      draws := s.draws + 1 }))

/-- R109: every cycle of the sequencer uses up a bounded counter, so `Framer` can take no more steps by itself than the
operation's budget. -/
def Obligations.FramerStepsAreBounded : Prop :=
  ∀ s t : State, s.Inv → s.framerStep = some t → t.framerBudget < s.framerBudget

/-- R109, R95 (d): under the fairness the rule assumes, as the model's default turns give it (log entry 6), every operation
completes, within its budget and the bytes still to leave, with exactly one response. -/
def Obligations.EveryOperationCompletes : Prop :=
  ∀ s : State, s.Inv → s.sched = [] → s.busy = true →
    ∃ n ≤ s.framerBudget + s.txq.length + 12, ∃ t r, core.run n s = .next t ∧ t.busy = false ∧
      t.responses = s.responses ++ [r] ∧ r.op = s.op ∧ r.status = t.status.code

/-- R110, R44 (1), R95 (d): under the model's default turns (log entry 6) a program of command words that select
operations runs to its end, and the responses name the operation in progress, if there is one, and then the program's
operations in order, each once. -/
def Obligations.ProgramsRunToTheirEnd : Prop :=
  ∀ s : State, s.Inv → s.sched = [] → (∀ w ∈ s.program, ∃ i, decodeCmd w = .ok i) →
    ∃ n t added, core.run n s = .next t ∧ t.RunOver ∧ t.responses = s.responses ++ added ∧
      added.map Response.op = (if s.busy then [s.op] else []) ++ s.program.map cmdOp

/-- R96, R97, R45 on a link that does not fail (the model's default turns, log entry 6): a send completes `OK` with what was
left in `TXQ` and then its twelve bytes on the wire. -/
def Obligations.SendCompletesOnAWorkingLink : Prop :=
  ∀ (t : Byte) (p : Payload) (s : State), s.busy = false → s.sched = [] →
    ∃ u v, exec (.frmSend t p) s = .next u ∧ core.run (25 + s.txq.length) u = .next v ∧
      v.busy = false ∧ v.status = .ok ∧ v.txq = [] ∧ v.wire = s.wire ++ s.txq ++ (encodeFrame s.params t p).toList ∧
      v.rxq = s.rxq ∧ v.rvalid = s.rvalid ∧ v.att = s.att ∧ v.crc = s.crc

/-- R99, R101, R104, R150 (default turns, log entry 6): a receive returns the oldest frame waiting and leaves the bytes
behind it. -/
def Obligations.RecvReturnsTheOldestFrame : Prop :=
  ∀ (t : Byte) (p : Payload) (rest : List Byte) (s : State), s.busy = false → s.sched = [] →
    s.rxq = (encodeFrame s.params t p).toList ++ rest →
    ∃ u v, exec .frmRecv s = .next u ∧ core.run 13 u = .next v ∧
      v.busy = false ∧ v.status = .ok ∧ v.rvalid = true ∧ v.typeRx = t ∧ v.payloadRx = p ∧ v.rxq = rest ∧
      v.rspq = s.rspq ++ [⟨0x5, 0, t, p⟩] ∧ v.txq = s.txq ∧ v.txbuf = s.txbuf ∧ v.att = s.att ∧ v.crc = s.crc

/-- R105, R106 (default turns, log entry 6): after a bad window `FRM.RSYNC` has discarded all that was buffered, and
completes `OK` with the frame that arrives next, whatever `MAX_ATTEMPTS` and `FLUSH_ON_FINAL` are. -/
def Obligations.RsyncRecoversAfterABadWindow : Prop :=
  ∀ (window : Buffer) (junk : List Byte) (r : Status) (s : State), s.busy = false → s.sched = [] →
    s.rxq = window.toList ++ junk → (decodeFrame s.params window).FailsWith r →
    ∃ u v, exec .frmRsync s = .next u ∧ core.run 13 u = .next v ∧
      v.busy = true ∧ v.att = 1 ∧ v.rxq = [] ∧ v.rxc = 0 ∧ v.rspq = s.rspq ∧
      ∀ (t : Byte) (p : Payload) (rest : List Byte),
        ∃ x, core.run 13 { v with rxq := (encodeFrame s.params t p).toList ++ rest } = .next x ∧
          x.busy = false ∧ x.status = .ok ∧ x.rvalid = true ∧ x.typeRx = t ∧ x.payloadRx = p ∧ x.att = 1 ∧
          x.rxq = rest ∧ x.rspq = s.rspq ++ [⟨0x6, 0, t, p⟩]

/-! ## Rules of the whole machine -/

/-- R95 (b) to (d): a step sends one response exactly when an operation completes. While an operation is in progress a step
either sends nothing and does not end it, or ends it and sends its response, which names the operation and the outcome in
`STATUS`. From an idle block a step sends a response exactly when it issues an operation that does all its work at once, and
leaves it busy exactly when it issues one of the other three. -/
def Obligations.OneResponsePerOperation : Prop :=
  ∀ s t : State, step s = .next t →
    (s.busy = true →
      (t.busy = true ∧ t.responses = s.responses) ∨
      (t.busy = false ∧ ∃ r, t.responses = s.responses ++ [r] ∧ r.op = s.op ∧ r.status = t.status.code)) ∧
    (∀ op, s.IssuesAtOnce op →
      t.busy = false ∧ ∃ r, t.responses = s.responses ++ [r] ∧ r.op = op ∧ r.status = 0) ∧
    (s.busy = false → (∀ op, ¬s.IssuesAtOnce op) →
      t.responses = s.responses ∧ (t.busy = true ↔ s.IssuesSend ∨ s.Issues .frmRecv ∨ s.Issues .frmRsync))

/-- R12, R15: only `CRC.INIT` and `CRC.UPD` write `CRC`, and each writes what its rule says. -/
def Obligations.OnlyCrcOperationsWriteCrc : Prop :=
  ∀ s t : State, step s = .next t →
    t.crc = s.crc ∨ (s.Issues .crcInit ∧ t.crc = 0xFF) ∨ (∃ x, s.Issues (.crcUpd x) ∧ t.crc = crcStep s.crc x)

/-- R12, R157: no step but the issue of a CRC operation depends on `CRC`. -/
def Obligations.FrameTrafficIgnoresCrc : Prop :=
  ∀ (s t : State) (c : Byte), ¬s.Issues .crcInit → ¬s.Issues .crcGet → (∀ x, ¬s.Issues (.crcUpd x)) →
    step s = .next t → step { s with crc := c } = .next { t with crc := c }

/-- R11, R15: `TYPE_RX` and `PAYLOAD_RX` change only when a receive operation accepts its window, and are then that
window's, with `RVALID = 1` and `STATUS` `OK`. -/
def Obligations.ResultsComeFromAcceptedWindows : Prop :=
  ∀ s t : State, step s = .next t → t.typeRx ≠ s.typeRx ∨ t.payloadRx ≠ s.payloadRx →
    s.phase = .rx ∧ s.rxc.toNat = 12 ∧ decodeFrame s.params s.rxbuf = .ok t.typeRx t.payloadRx ∧
      t.rvalid = true ∧ t.status = .ok ∧ t.phase = .idle

/-- R13, R14, R41: `TXBUF` is written only by the issue of `FRM.SEND`, with the encoded frame; `RXBUF` only by a take, in
byte `RXC` only. -/
def Obligations.BuffersAreWrittenByTheirOperations : Prop :=
  ∀ s t : State, step s = .next t →
    (t.txbuf = s.txbuf ∨ ∃ ty p, s.Issues (.frmSend ty p) ∧ t.txbuf = encodeFrame s.params ty p) ∧
    (t.rxbuf = s.rxbuf ∨ (s.phase = .rx ∧ s.rxc.toNat < 12 ∧ t.rxc = s.rxc + 1 ∧
      ∀ i : Fin frameLen, i.val ≠ s.rxc.toNat → readByte t.rxbuf i = readByte s.rxbuf i))

/-- R15, R18 to R21: which steps write the control registers `OP`, `STATUS`, `RVALID` and `ATT`, with what, and that no other
step does. `OP`: the code of the link operation issued. `STATUS`: 0 by `FRM.FLUSH`, the outcome by a completion. `RVALID`: 0
by the issue of a receive, 1 by its completion with `OK`. `ATT`: 0 by the issue of `FRM.RSYNC`, one more by its check of a
window that does not decode. -/
def Obligations.ControlRegistersAreWrittenAsListed : Prop :=
  ∀ s t : State, step s = .next t →
    ((s.IssuesSend → t.op = 0x4) ∧ (s.Issues .frmRecv → t.op = 0x5) ∧ (s.Issues .frmRsync → t.op = 0x6) ∧
      (s.Issues .frmFlush → t.op = 0x7) ∧
      (¬s.IssuesSend → ¬s.Issues .frmRecv → ¬s.Issues .frmRsync → ¬s.Issues .frmFlush → t.op = s.op)) ∧
    ((s.Issues .frmFlush → t.status = .ok) ∧ (s.busy = true → t.busy = false → s.CompletesWith t.status) ∧
      (¬s.Issues .frmFlush → ¬(s.busy = true ∧ t.busy = false) → t.status = s.status)) ∧
    ((s.Issues .frmRecv ∨ s.Issues .frmRsync → t.rvalid = false) ∧
      (s.phase = .rx → t.phase = .idle → t.status = .ok → t.rvalid = true) ∧
      (¬s.Issues .frmRecv → ¬s.Issues .frmRsync → ¬(s.phase = .rx ∧ t.phase = .idle ∧ t.status = .ok) →
        t.rvalid = s.rvalid)) ∧
    ((s.Issues .frmRsync → t.att = 0) ∧ (s.CountsFailure → t.att = s.att + 1) ∧
      (¬s.Issues .frmRsync → ¬s.CountsFailure → t.att = s.att))

/-- R44 (2), (3), R32, R35, R36: both streams are first-in first-out. `WIRE` grows by the head of `TXQ` only. `TXQ` gains
the next byte of `TXBUF` at its tail, loses its head to the wire, or is cut to a prefix by a failed send. `RXQ` gains at
its tail what arrives, loses its head to an unfilled window, or is emptied by a flush. -/
def Obligations.StreamsAreFirstInFirstOut : Prop :=
  ∀ s t : State, step s = .next t →
    ((t.wire = s.wire ∧ t.txq = s.txq) ∨
      (∃ b, s.txq = b :: t.txq ∧ t.wire = s.wire ++ [b]) ∨
      (t.wire = s.wire ∧ s.phase = .tx ∧ ∃ h : s.txi.toNat < 12, t.txq = s.txq ++ [readByte s.txbuf ⟨s.txi.toNat, h⟩]) ∨
      (t.wire = s.wire ∧ s.phase = .tx ∧ t.txq <+: s.txq ∧ t.status = .ioFail)) ∧
    (t.rxq = s.rxq ++ s.arriving ∨
      ((∃ b, s.rxq = b :: t.rxq) ∧ s.phase = .rx ∧ s.rxc.toNat < 12) ∨
      (t.rxq = [] ∧ (s.Issues .frmFlush ∨ (s.phase = .rx ∧ s.op = 0x6 ∧ s.rxc.toNat = 12))))

/-- R11, R13, R14, R24 (U3, U9): contents no rule reads never matter. States that differ only in them step alike, so what
reset leaves unspecified is never seen. -/
def Obligations.StaleContentsNeverMatter : Prop :=
  ∀ s s' t : State, AgreeUpToStale s s' → step s = .next t → ∃ t', step s' = .next t' ∧ AgreeUpToStale t t'

/-- R23: no step changes the parameters of the instance. -/
def Obligations.ParametersNeverChange : Prop :=
  ∀ s t : State, step s = .next t → t.params = s.params
end

