-- ==== Sys2Proof/Laws/State.lean ====
section
/-!
SUPPORT. What each named update of the state does to each field, one lemma per field per update, so that no later proof
unfolds a record update; and the small lemmas of the accessors over the state.
-/

namespace Sys2Proof.Machine

/-! ## `clearValid` -/

@[simp] theorem State.clearValid_phase (s : State) : (s.clearValid).phase = s.phase := rfl
@[simp] theorem State.clearValid_txi (s : State) : (s.clearValid).txi = s.txi := rfl
@[simp] theorem State.clearValid_rxc (s : State) : (s.clearValid).rxc = s.rxc := rfl
@[simp] theorem State.clearValid_att (s : State) : (s.clearValid).att = s.att := rfl
@[simp] theorem State.clearValid_op (s : State) : (s.clearValid).op = s.op := rfl
@[simp] theorem State.clearValid_status (s : State) : (s.clearValid).status = s.status := rfl
@[simp] theorem State.clearValid_rvalid (s : State) : (s.clearValid).rvalid = false := rfl
@[simp] theorem State.clearValid_crc (s : State) : (s.clearValid).crc = s.crc := rfl
@[simp] theorem State.clearValid_typeRx (s : State) : (s.clearValid).typeRx = s.typeRx := rfl
@[simp] theorem State.clearValid_payloadRx (s : State) : (s.clearValid).payloadRx = s.payloadRx := rfl
@[simp] theorem State.clearValid_txbuf (s : State) : (s.clearValid).txbuf = s.txbuf := rfl
@[simp] theorem State.clearValid_rxbuf (s : State) : (s.clearValid).rxbuf = s.rxbuf := rfl
@[simp] theorem State.clearValid_rxq (s : State) : (s.clearValid).rxq = s.rxq := rfl
@[simp] theorem State.clearValid_txq (s : State) : (s.clearValid).txq = s.txq := rfl
@[simp] theorem State.clearValid_wire (s : State) : (s.clearValid).wire = s.wire := rfl
@[simp] theorem State.clearValid_params (s : State) : (s.clearValid).params = s.params := rfl
@[simp] theorem State.clearValid_rspq (s : State) : (s.clearValid).rspq = s.rspq := rfl
@[simp] theorem State.clearValid_hostLog (s : State) : (s.clearValid).hostLog = s.hostLog := rfl
@[simp] theorem State.clearValid_program (s : State) : (s.clearValid).program = s.program := rfl
@[simp] theorem State.clearValid_sched (s : State) : (s.clearValid).sched = s.sched := rfl
@[simp] theorem State.clearValid_draws (s : State) : (s.clearValid).draws = s.draws := rfl

/-! ## `setValid` -/

@[simp] theorem State.setValid_phase (s : State) : (s.setValid).phase = s.phase := rfl
@[simp] theorem State.setValid_txi (s : State) : (s.setValid).txi = s.txi := rfl
@[simp] theorem State.setValid_rxc (s : State) : (s.setValid).rxc = s.rxc := rfl
@[simp] theorem State.setValid_att (s : State) : (s.setValid).att = s.att := rfl
@[simp] theorem State.setValid_op (s : State) : (s.setValid).op = s.op := rfl
@[simp] theorem State.setValid_status (s : State) : (s.setValid).status = s.status := rfl
@[simp] theorem State.setValid_rvalid (s : State) : (s.setValid).rvalid = true := rfl
@[simp] theorem State.setValid_crc (s : State) : (s.setValid).crc = s.crc := rfl
@[simp] theorem State.setValid_typeRx (s : State) : (s.setValid).typeRx = s.typeRx := rfl
@[simp] theorem State.setValid_payloadRx (s : State) : (s.setValid).payloadRx = s.payloadRx := rfl
@[simp] theorem State.setValid_txbuf (s : State) : (s.setValid).txbuf = s.txbuf := rfl
@[simp] theorem State.setValid_rxbuf (s : State) : (s.setValid).rxbuf = s.rxbuf := rfl
@[simp] theorem State.setValid_rxq (s : State) : (s.setValid).rxq = s.rxq := rfl
@[simp] theorem State.setValid_txq (s : State) : (s.setValid).txq = s.txq := rfl
@[simp] theorem State.setValid_wire (s : State) : (s.setValid).wire = s.wire := rfl
@[simp] theorem State.setValid_params (s : State) : (s.setValid).params = s.params := rfl
@[simp] theorem State.setValid_rspq (s : State) : (s.setValid).rspq = s.rspq := rfl
@[simp] theorem State.setValid_hostLog (s : State) : (s.setValid).hostLog = s.hostLog := rfl
@[simp] theorem State.setValid_program (s : State) : (s.setValid).program = s.program := rfl
@[simp] theorem State.setValid_sched (s : State) : (s.setValid).sched = s.sched := rfl
@[simp] theorem State.setValid_draws (s : State) : (s.setValid).draws = s.draws := rfl

/-! ## `txPut` -/

@[simp] theorem State.txPut_phase (b : Byte) (s : State) : (s.txPut b).phase = s.phase := rfl
@[simp] theorem State.txPut_txi (b : Byte) (s : State) : (s.txPut b).txi = s.txi := rfl
@[simp] theorem State.txPut_rxc (b : Byte) (s : State) : (s.txPut b).rxc = s.rxc := rfl
@[simp] theorem State.txPut_att (b : Byte) (s : State) : (s.txPut b).att = s.att := rfl
@[simp] theorem State.txPut_op (b : Byte) (s : State) : (s.txPut b).op = s.op := rfl
@[simp] theorem State.txPut_status (b : Byte) (s : State) : (s.txPut b).status = s.status := rfl
@[simp] theorem State.txPut_rvalid (b : Byte) (s : State) : (s.txPut b).rvalid = s.rvalid := rfl
@[simp] theorem State.txPut_crc (b : Byte) (s : State) : (s.txPut b).crc = s.crc := rfl
@[simp] theorem State.txPut_typeRx (b : Byte) (s : State) : (s.txPut b).typeRx = s.typeRx := rfl
@[simp] theorem State.txPut_payloadRx (b : Byte) (s : State) : (s.txPut b).payloadRx = s.payloadRx := rfl
@[simp] theorem State.txPut_txbuf (b : Byte) (s : State) : (s.txPut b).txbuf = s.txbuf := rfl
@[simp] theorem State.txPut_rxbuf (b : Byte) (s : State) : (s.txPut b).rxbuf = s.rxbuf := rfl
@[simp] theorem State.txPut_rxq (b : Byte) (s : State) : (s.txPut b).rxq = s.rxq := rfl
@[simp] theorem State.txPut_txq (b : Byte) (s : State) : (s.txPut b).txq = s.txq ++ [b] := rfl
@[simp] theorem State.txPut_wire (b : Byte) (s : State) : (s.txPut b).wire = s.wire := rfl
@[simp] theorem State.txPut_params (b : Byte) (s : State) : (s.txPut b).params = s.params := rfl
@[simp] theorem State.txPut_rspq (b : Byte) (s : State) : (s.txPut b).rspq = s.rspq := rfl
@[simp] theorem State.txPut_hostLog (b : Byte) (s : State) : (s.txPut b).hostLog = s.hostLog := rfl
@[simp] theorem State.txPut_program (b : Byte) (s : State) : (s.txPut b).program = s.program := rfl
@[simp] theorem State.txPut_sched (b : Byte) (s : State) : (s.txPut b).sched = s.sched := rfl
@[simp] theorem State.txPut_draws (b : Byte) (s : State) : (s.txPut b).draws = s.draws := rfl

/-! ## `rxFlush` -/

@[simp] theorem State.rxFlush_phase (s : State) : (s.rxFlush).phase = s.phase := rfl
@[simp] theorem State.rxFlush_txi (s : State) : (s.rxFlush).txi = s.txi := rfl
@[simp] theorem State.rxFlush_rxc (s : State) : (s.rxFlush).rxc = s.rxc := rfl
@[simp] theorem State.rxFlush_att (s : State) : (s.rxFlush).att = s.att := rfl
@[simp] theorem State.rxFlush_op (s : State) : (s.rxFlush).op = s.op := rfl
@[simp] theorem State.rxFlush_status (s : State) : (s.rxFlush).status = s.status := rfl
@[simp] theorem State.rxFlush_rvalid (s : State) : (s.rxFlush).rvalid = s.rvalid := rfl
@[simp] theorem State.rxFlush_crc (s : State) : (s.rxFlush).crc = s.crc := rfl
@[simp] theorem State.rxFlush_typeRx (s : State) : (s.rxFlush).typeRx = s.typeRx := rfl
@[simp] theorem State.rxFlush_payloadRx (s : State) : (s.rxFlush).payloadRx = s.payloadRx := rfl
@[simp] theorem State.rxFlush_txbuf (s : State) : (s.rxFlush).txbuf = s.txbuf := rfl
@[simp] theorem State.rxFlush_rxbuf (s : State) : (s.rxFlush).rxbuf = s.rxbuf := rfl
@[simp] theorem State.rxFlush_rxq (s : State) : (s.rxFlush).rxq = [] := rfl
@[simp] theorem State.rxFlush_txq (s : State) : (s.rxFlush).txq = s.txq := rfl
@[simp] theorem State.rxFlush_wire (s : State) : (s.rxFlush).wire = s.wire := rfl
@[simp] theorem State.rxFlush_params (s : State) : (s.rxFlush).params = s.params := rfl
@[simp] theorem State.rxFlush_rspq (s : State) : (s.rxFlush).rspq = s.rspq := rfl
@[simp] theorem State.rxFlush_hostLog (s : State) : (s.rxFlush).hostLog = s.hostLog := rfl
@[simp] theorem State.rxFlush_program (s : State) : (s.rxFlush).program = s.program := rfl
@[simp] theorem State.rxFlush_sched (s : State) : (s.rxFlush).sched = s.sched := rfl
@[simp] theorem State.rxFlush_draws (s : State) : (s.rxFlush).draws = s.draws := rfl

/-! ## `deliver` -/

@[simp] theorem State.deliver_phase (bs : List Byte) (s : State) : (s.deliver bs).phase = s.phase := rfl
@[simp] theorem State.deliver_txi (bs : List Byte) (s : State) : (s.deliver bs).txi = s.txi := rfl
@[simp] theorem State.deliver_rxc (bs : List Byte) (s : State) : (s.deliver bs).rxc = s.rxc := rfl
@[simp] theorem State.deliver_att (bs : List Byte) (s : State) : (s.deliver bs).att = s.att := rfl
@[simp] theorem State.deliver_op (bs : List Byte) (s : State) : (s.deliver bs).op = s.op := rfl
@[simp] theorem State.deliver_status (bs : List Byte) (s : State) : (s.deliver bs).status = s.status := rfl
@[simp] theorem State.deliver_rvalid (bs : List Byte) (s : State) : (s.deliver bs).rvalid = s.rvalid := rfl
@[simp] theorem State.deliver_crc (bs : List Byte) (s : State) : (s.deliver bs).crc = s.crc := rfl
@[simp] theorem State.deliver_typeRx (bs : List Byte) (s : State) : (s.deliver bs).typeRx = s.typeRx := rfl
@[simp] theorem State.deliver_payloadRx (bs : List Byte) (s : State) : (s.deliver bs).payloadRx = s.payloadRx := rfl
@[simp] theorem State.deliver_txbuf (bs : List Byte) (s : State) : (s.deliver bs).txbuf = s.txbuf := rfl
@[simp] theorem State.deliver_rxbuf (bs : List Byte) (s : State) : (s.deliver bs).rxbuf = s.rxbuf := rfl
@[simp] theorem State.deliver_rxq (bs : List Byte) (s : State) : (s.deliver bs).rxq = s.rxq ++ bs := rfl
@[simp] theorem State.deliver_txq (bs : List Byte) (s : State) : (s.deliver bs).txq = s.txq := rfl
@[simp] theorem State.deliver_wire (bs : List Byte) (s : State) : (s.deliver bs).wire = s.wire := rfl
@[simp] theorem State.deliver_params (bs : List Byte) (s : State) : (s.deliver bs).params = s.params := rfl
@[simp] theorem State.deliver_rspq (bs : List Byte) (s : State) : (s.deliver bs).rspq = s.rspq := rfl
@[simp] theorem State.deliver_hostLog (bs : List Byte) (s : State) : (s.deliver bs).hostLog = s.hostLog := rfl
@[simp] theorem State.deliver_program (bs : List Byte) (s : State) : (s.deliver bs).program = s.program := rfl
@[simp] theorem State.deliver_sched (bs : List Byte) (s : State) : (s.deliver bs).sched = s.sched := rfl
@[simp] theorem State.deliver_draws (bs : List Byte) (s : State) : (s.deliver bs).draws = s.draws := rfl

/-! ## `cutTx` -/

@[simp] theorem State.cutTx_phase (keep : Nat) (s : State) : (s.cutTx keep).phase = s.phase := rfl
@[simp] theorem State.cutTx_txi (keep : Nat) (s : State) : (s.cutTx keep).txi = s.txi := rfl
@[simp] theorem State.cutTx_rxc (keep : Nat) (s : State) : (s.cutTx keep).rxc = s.rxc := rfl
@[simp] theorem State.cutTx_att (keep : Nat) (s : State) : (s.cutTx keep).att = s.att := rfl
@[simp] theorem State.cutTx_op (keep : Nat) (s : State) : (s.cutTx keep).op = s.op := rfl
@[simp] theorem State.cutTx_status (keep : Nat) (s : State) : (s.cutTx keep).status = s.status := rfl
@[simp] theorem State.cutTx_rvalid (keep : Nat) (s : State) : (s.cutTx keep).rvalid = s.rvalid := rfl
@[simp] theorem State.cutTx_crc (keep : Nat) (s : State) : (s.cutTx keep).crc = s.crc := rfl
@[simp] theorem State.cutTx_typeRx (keep : Nat) (s : State) : (s.cutTx keep).typeRx = s.typeRx := rfl
@[simp] theorem State.cutTx_payloadRx (keep : Nat) (s : State) : (s.cutTx keep).payloadRx = s.payloadRx := rfl
@[simp] theorem State.cutTx_txbuf (keep : Nat) (s : State) : (s.cutTx keep).txbuf = s.txbuf := rfl
@[simp] theorem State.cutTx_rxbuf (keep : Nat) (s : State) : (s.cutTx keep).rxbuf = s.rxbuf := rfl
@[simp] theorem State.cutTx_rxq (keep : Nat) (s : State) : (s.cutTx keep).rxq = s.rxq := rfl
@[simp] theorem State.cutTx_txq (keep : Nat) (s : State) : (s.cutTx keep).txq = s.txq.take keep := rfl
@[simp] theorem State.cutTx_wire (keep : Nat) (s : State) : (s.cutTx keep).wire = s.wire := rfl
@[simp] theorem State.cutTx_params (keep : Nat) (s : State) : (s.cutTx keep).params = s.params := rfl
@[simp] theorem State.cutTx_rspq (keep : Nat) (s : State) : (s.cutTx keep).rspq = s.rspq := rfl
@[simp] theorem State.cutTx_hostLog (keep : Nat) (s : State) : (s.cutTx keep).hostLog = s.hostLog := rfl
@[simp] theorem State.cutTx_program (keep : Nat) (s : State) : (s.cutTx keep).program = s.program := rfl
@[simp] theorem State.cutTx_sched (keep : Nat) (s : State) : (s.cutTx keep).sched = s.sched := rfl
@[simp] theorem State.cutTx_draws (keep : Nat) (s : State) : (s.cutTx keep).draws = s.draws := rfl

/-! ## `respond` -/

@[simp] theorem State.respond_phase (op : BitVec 4) (st : BitVec 3) (a : Option Byte) (d : Option Payload) (s : State) : (s.respond op st a d).phase = s.phase := rfl
@[simp] theorem State.respond_txi (op : BitVec 4) (st : BitVec 3) (a : Option Byte) (d : Option Payload) (s : State) : (s.respond op st a d).txi = s.txi := rfl
@[simp] theorem State.respond_rxc (op : BitVec 4) (st : BitVec 3) (a : Option Byte) (d : Option Payload) (s : State) : (s.respond op st a d).rxc = s.rxc := rfl
@[simp] theorem State.respond_att (op : BitVec 4) (st : BitVec 3) (a : Option Byte) (d : Option Payload) (s : State) : (s.respond op st a d).att = s.att := rfl
@[simp] theorem State.respond_op (op : BitVec 4) (st : BitVec 3) (a : Option Byte) (d : Option Payload) (s : State) : (s.respond op st a d).op = s.op := rfl
@[simp] theorem State.respond_status (op : BitVec 4) (st : BitVec 3) (a : Option Byte) (d : Option Payload) (s : State) : (s.respond op st a d).status = s.status := rfl
@[simp] theorem State.respond_rvalid (op : BitVec 4) (st : BitVec 3) (a : Option Byte) (d : Option Payload) (s : State) : (s.respond op st a d).rvalid = s.rvalid := rfl
@[simp] theorem State.respond_crc (op : BitVec 4) (st : BitVec 3) (a : Option Byte) (d : Option Payload) (s : State) : (s.respond op st a d).crc = s.crc := rfl
@[simp] theorem State.respond_typeRx (op : BitVec 4) (st : BitVec 3) (a : Option Byte) (d : Option Payload) (s : State) : (s.respond op st a d).typeRx = s.typeRx := rfl
@[simp] theorem State.respond_payloadRx (op : BitVec 4) (st : BitVec 3) (a : Option Byte) (d : Option Payload) (s : State) : (s.respond op st a d).payloadRx = s.payloadRx := rfl
@[simp] theorem State.respond_txbuf (op : BitVec 4) (st : BitVec 3) (a : Option Byte) (d : Option Payload) (s : State) : (s.respond op st a d).txbuf = s.txbuf := rfl
@[simp] theorem State.respond_rxbuf (op : BitVec 4) (st : BitVec 3) (a : Option Byte) (d : Option Payload) (s : State) : (s.respond op st a d).rxbuf = s.rxbuf := rfl
@[simp] theorem State.respond_rxq (op : BitVec 4) (st : BitVec 3) (a : Option Byte) (d : Option Payload) (s : State) : (s.respond op st a d).rxq = s.rxq := rfl
@[simp] theorem State.respond_txq (op : BitVec 4) (st : BitVec 3) (a : Option Byte) (d : Option Payload) (s : State) : (s.respond op st a d).txq = s.txq := rfl
@[simp] theorem State.respond_wire (op : BitVec 4) (st : BitVec 3) (a : Option Byte) (d : Option Payload) (s : State) : (s.respond op st a d).wire = s.wire := rfl
@[simp] theorem State.respond_params (op : BitVec 4) (st : BitVec 3) (a : Option Byte) (d : Option Payload) (s : State) : (s.respond op st a d).params = s.params := rfl
@[simp] theorem State.respond_rspq (op : BitVec 4) (st : BitVec 3) (a : Option Byte) (d : Option Payload) (s : State) : (s.respond op st a d).rspq = s.rspq ++ [⟨op, st, a.getD (Config.freeByte s.draws), d.getD (Config.freePayload s.draws)⟩] := rfl
@[simp] theorem State.respond_hostLog (op : BitVec 4) (st : BitVec 3) (a : Option Byte) (d : Option Payload) (s : State) : (s.respond op st a d).hostLog = s.hostLog := rfl
@[simp] theorem State.respond_program (op : BitVec 4) (st : BitVec 3) (a : Option Byte) (d : Option Payload) (s : State) : (s.respond op st a d).program = s.program := rfl
@[simp] theorem State.respond_sched (op : BitVec 4) (st : BitVec 3) (a : Option Byte) (d : Option Payload) (s : State) : (s.respond op st a d).sched = s.sched := rfl
@[simp] theorem State.respond_draws (op : BitVec 4) (st : BitVec 3) (a : Option Byte) (d : Option Payload) (s : State) : (s.respond op st a d).draws = s.draws + 1 := rfl

/-! ## `complete` -/

@[simp] theorem State.complete_phase (st : Status) (s : State) : (s.complete st).phase = .idle := rfl
@[simp] theorem State.complete_txi (st : Status) (s : State) : (s.complete st).txi = s.txi := rfl
@[simp] theorem State.complete_rxc (st : Status) (s : State) : (s.complete st).rxc = s.rxc := rfl
@[simp] theorem State.complete_att (st : Status) (s : State) : (s.complete st).att = s.att := rfl
@[simp] theorem State.complete_op (st : Status) (s : State) : (s.complete st).op = s.op := rfl
@[simp] theorem State.complete_status (st : Status) (s : State) : (s.complete st).status = st := rfl
@[simp] theorem State.complete_rvalid (st : Status) (s : State) : (s.complete st).rvalid = s.rvalid := rfl
@[simp] theorem State.complete_crc (st : Status) (s : State) : (s.complete st).crc = s.crc := rfl
@[simp] theorem State.complete_typeRx (st : Status) (s : State) : (s.complete st).typeRx = s.typeRx := rfl
@[simp] theorem State.complete_payloadRx (st : Status) (s : State) : (s.complete st).payloadRx = s.payloadRx := rfl
@[simp] theorem State.complete_txbuf (st : Status) (s : State) : (s.complete st).txbuf = s.txbuf := rfl
@[simp] theorem State.complete_rxbuf (st : Status) (s : State) : (s.complete st).rxbuf = s.rxbuf := rfl
@[simp] theorem State.complete_rxq (st : Status) (s : State) : (s.complete st).rxq = s.rxq := rfl
@[simp] theorem State.complete_txq (st : Status) (s : State) : (s.complete st).txq = s.txq := rfl
@[simp] theorem State.complete_wire (st : Status) (s : State) : (s.complete st).wire = s.wire := rfl
@[simp] theorem State.complete_params (st : Status) (s : State) : (s.complete st).params = s.params := rfl
@[simp] theorem State.complete_rspq (st : Status) (s : State) : (s.complete st).rspq = s.rspq ++ [⟨s.op, st.code, Config.freeByte s.draws, Config.freePayload s.draws⟩] := rfl
@[simp] theorem State.complete_hostLog (st : Status) (s : State) : (s.complete st).hostLog = s.hostLog := rfl
@[simp] theorem State.complete_program (st : Status) (s : State) : (s.complete st).program = s.program := rfl
@[simp] theorem State.complete_sched (st : Status) (s : State) : (s.complete st).sched = s.sched := rfl
@[simp] theorem State.complete_draws (st : Status) (s : State) : (s.complete st).draws = s.draws + 1 := rfl

/-! ## `completeOk` -/

@[simp] theorem State.completeOk_phase (t : Byte) (p : Payload) (s : State) : (s.completeOk t p).phase = .idle := rfl
@[simp] theorem State.completeOk_txi (t : Byte) (p : Payload) (s : State) : (s.completeOk t p).txi = s.txi := rfl
@[simp] theorem State.completeOk_rxc (t : Byte) (p : Payload) (s : State) : (s.completeOk t p).rxc = s.rxc := rfl
@[simp] theorem State.completeOk_att (t : Byte) (p : Payload) (s : State) : (s.completeOk t p).att = s.att := rfl
@[simp] theorem State.completeOk_op (t : Byte) (p : Payload) (s : State) : (s.completeOk t p).op = s.op := rfl
@[simp] theorem State.completeOk_status (t : Byte) (p : Payload) (s : State) : (s.completeOk t p).status = .ok := rfl
@[simp] theorem State.completeOk_rvalid (t : Byte) (p : Payload) (s : State) : (s.completeOk t p).rvalid = true := rfl
@[simp] theorem State.completeOk_crc (t : Byte) (p : Payload) (s : State) : (s.completeOk t p).crc = s.crc := rfl
@[simp] theorem State.completeOk_typeRx (t : Byte) (p : Payload) (s : State) : (s.completeOk t p).typeRx = t := rfl
@[simp] theorem State.completeOk_payloadRx (t : Byte) (p : Payload) (s : State) : (s.completeOk t p).payloadRx = p := rfl
@[simp] theorem State.completeOk_txbuf (t : Byte) (p : Payload) (s : State) : (s.completeOk t p).txbuf = s.txbuf := rfl
@[simp] theorem State.completeOk_rxbuf (t : Byte) (p : Payload) (s : State) : (s.completeOk t p).rxbuf = s.rxbuf := rfl
@[simp] theorem State.completeOk_rxq (t : Byte) (p : Payload) (s : State) : (s.completeOk t p).rxq = s.rxq := rfl
@[simp] theorem State.completeOk_txq (t : Byte) (p : Payload) (s : State) : (s.completeOk t p).txq = s.txq := rfl
@[simp] theorem State.completeOk_wire (t : Byte) (p : Payload) (s : State) : (s.completeOk t p).wire = s.wire := rfl
@[simp] theorem State.completeOk_params (t : Byte) (p : Payload) (s : State) : (s.completeOk t p).params = s.params := rfl
@[simp] theorem State.completeOk_rspq (t : Byte) (p : Payload) (s : State) : (s.completeOk t p).rspq = s.rspq ++ [⟨s.op, Status.ok.code, t, p⟩] := rfl
@[simp] theorem State.completeOk_hostLog (t : Byte) (p : Payload) (s : State) : (s.completeOk t p).hostLog = s.hostLog := rfl
@[simp] theorem State.completeOk_program (t : Byte) (p : Payload) (s : State) : (s.completeOk t p).program = s.program := rfl
@[simp] theorem State.completeOk_sched (t : Byte) (p : Payload) (s : State) : (s.completeOk t p).sched = s.sched := rfl
@[simp] theorem State.completeOk_draws (t : Byte) (p : Payload) (s : State) : (s.completeOk t p).draws = s.draws + 1 := rfl

/-! ## Accessors -/

theorem State.busy_eq_true (s : State) : s.busy = true ↔ s.phase ≠ .idle := by
  simp [State.busy]

theorem State.busy_eq_false (s : State) : s.busy = false ↔ s.phase = .idle := by
  simp [State.busy]

theorem State.txDrained_eq_true (s : State) : s.txDrained = true ↔ s.txq = [] := by
  simp [State.txDrained]

theorem State.rxAvail_eq_true (s : State) : s.rxAvail = true ↔ s.rxq ≠ [] := by
  simp [State.rxAvail]

theorem State.rxAvail_eq_false (s : State) : s.rxAvail = false ↔ s.rxq = [] := by
  simp [State.rxAvail]

/-- What accepting an operation can do: only an idle block accepts, and it does as the operation says. -/
theorem whenIdle_eq_next {s t u : State} : whenIdle s t = .next u ↔ s.phase = .idle ∧ t = u := by
  unfold whenIdle
  rw [← State.busy_eq_false]
  cases s.busy <;> simp

theorem whenIdle_of_idle {s : State} (h : s.phase = .idle) (t : State) : whenIdle s t = .next t :=
  whenIdle_eq_next.2 ⟨h, rfl⟩

/-- A busy block refuses. -/
theorem whenIdle_of_busy {s : State} (h : s.phase ≠ .idle) (t : State) : whenIdle s t = .refused .busy := by
  simp [whenIdle, (State.busy_eq_true s).2 h]

/-- The head of `RXQ` is taken and the rest stays (R35). -/
theorem State.rxTake_eq_some {s t : State} {b : Byte} :
    s.rxTake = some (b, t) ↔ ∃ rest, s.rxq = b :: rest ∧ t = { s with rxq := rest } := by
  unfold State.rxTake
  cases h : s.rxq <;> simp [eq_comm]

/-- The head of `TXQ` goes to the tail of `WIRE` (R37). -/
theorem State.wireOut_eq_some {s t : State} :
    s.wireOut = some t ↔ ∃ b rest, s.txq = b :: rest ∧ t = { s with wire := s.wire ++ [b], txq := rest } := by
  unfold State.wireOut
  cases h : s.txq <;> simp [eq_comm]

/-- The oldest response goes to what `Host` has learnt (R54). -/
theorem State.takeResponse_eq_some {s t : State} :
    s.takeResponse = some t ↔
      ∃ r rest, s.rspq = r :: rest ∧ t = { s with rspq := rest, hostLog := s.hostLog ++ [.response r] } := by
  unfold State.takeResponse
  cases h : s.rspq <;> simp [eq_comm]

/-- What a register read by `Host` can do: nothing but be logged, and it draws once. -/
theorem State.hostRead_eq_next {s t : State} {r : HostReg} :
    s.hostRead r = .next t ↔
      (r = .busy ∨ s.phase = .idle) ∧
        t = { s with hostLog := s.hostLog ++ [.register r (s.hostValue r)], draws := s.draws + 1 } := by
  unfold State.hostRead
  rw [← State.busy_eq_false]
  by_cases hr : r = .busy <;> cases hb : s.busy <;> simp [hr, eq_comm]

end Sys2Proof.Machine
end

