-- ==== Sys2Proof/Laws/Buffers.lean ====
section
/-!
SUPPORT. The buffers: a read after a write, and how the first bytes of a buffer grow when one byte is moved
(00_scope.md R9, 20_memory.md R41). Every length is in the type `Buffer`, so no operation has a form to keep.
-/

namespace Sys2Proof.Machine

@[simp] theorem readByte_writeByte_same (b : Buffer) (i : Fin frameLen) (v : Byte) :
    readByte (writeByte b i v) i = v := by
  simp [readByte, writeByte]

theorem readByte_writeByte_other (b : Buffer) {i j : Fin frameLen} (v : Byte) (h : j ≠ i) :
    readByte (writeByte b i v) j = readByte b j := by
  have : i.val ≠ j.val := fun e => h (Fin.ext e.symm)
  simp [readByte, writeByte, this]

@[simp] theorem writeAll_eq (b s : Buffer) : writeAll b s = s := rfl

/-- Two buffers with the same bytes are the same. -/
theorem buffer_ext {b c : Buffer} (h : ∀ i, readByte b i = readByte c i) : b = c := by
  apply Vector.ext
  intro i hi
  exact h ⟨i, hi⟩

/-- The first `i + 1` bytes are the first `i` and byte `i`. -/
theorem take_succ_readByte (b : Buffer) (i : Fin frameLen) :
    b.toList.take (i.val + 1) = b.toList.take i.val ++ [readByte b i] := by
  have hi : i.val < b.toList.length := by simp
  rw [List.take_succ_eq_append_getElem hi]
  simp [readByte]

/-- Writing byte `i` does not change the bytes before it. -/
theorem take_writeByte (b : Buffer) (i : Fin frameLen) (v : Byte) :
    (writeByte b i v).toList.take i.val = b.toList.take i.val := by
  apply List.ext_getElem
  · simp
  · intro n h1 h2
    have : i.val ≠ n := by simp at h1; omega
    simp [writeByte, this]

/-- The first `i + 1` bytes after byte `i` is written. -/
theorem take_succ_writeByte (b : Buffer) (i : Fin frameLen) (v : Byte) :
    (writeByte b i v).toList.take (i.val + 1) = b.toList.take i.val ++ [v] := by
  rw [take_succ_readByte, take_writeByte, readByte_writeByte_same]

@[simp] theorem take_all (b : Buffer) : b.toList.take frameLen = b.toList :=
  List.take_of_length_le (by simp)

end Sys2Proof.Machine
end

