-- ==== Sys2Proof/Laws/Words.lean ====
section
/-!
SUPPORT. Taking the fields of a word out of the word of its fields (30_encoding.md R50, R52, R54), and the payload's
bytes (00_scope.md R9).
-/

namespace Sys2Proof.Machine

/-! ## The command word -/

@[simp] theorem cmdOp_cmdWord (op : BitVec 4) (a : Byte) (d : Payload) : cmdOp (cmdWord op a d) = op := by
  exact BitVec.eq_of_getLsbD_eq fun i hi => by simp [cmdOp, cmdWord, BitVec.getLsbD_extractLsb']; grind

@[simp] theorem cmdA_cmdWord (op : BitVec 4) (a : Byte) (d : Payload) : cmdA (cmdWord op a d) = a := by
  exact BitVec.eq_of_getLsbD_eq fun i hi => by simp [cmdA, cmdWord, BitVec.getLsbD_extractLsb']; grind

@[simp] theorem cmdD_cmdWord (op : BitVec 4) (a : Byte) (d : Payload) : cmdD (cmdWord op a d) = d := by
  exact BitVec.eq_of_getLsbD_eq fun i hi => by simp [cmdD, cmdWord, BitVec.getLsbD_extractLsb']; grind

theorem cmdWord_fields (w : CmdWord) : cmdWord (cmdOp w) (cmdA w) (cmdD w) = w := by
  exact BitVec.eq_of_getLsbD_eq fun i hi => by simp [cmdOp, cmdA, cmdD, cmdWord]; grind

/-! ## The response word -/

@[simp] theorem rspOp_rspWord (op : BitVec 4) (st : BitVec 3) (a : Byte) (d : Payload) :
    rspOp (rspWord op st a d) = op := by
  exact BitVec.eq_of_getLsbD_eq fun i hi => by simp [rspOp, rspWord, BitVec.getLsbD_extractLsb']; grind

@[simp] theorem rspStatus_rspWord (op : BitVec 4) (st : BitVec 3) (a : Byte) (d : Payload) :
    rspStatus (rspWord op st a d) = st := by
  exact BitVec.eq_of_getLsbD_eq fun i hi => by simp [rspStatus, rspWord, BitVec.getLsbD_extractLsb']; grind

@[simp] theorem rspA_rspWord (op : BitVec 4) (st : BitVec 3) (a : Byte) (d : Payload) :
    rspA (rspWord op st a d) = a := by
  exact BitVec.eq_of_getLsbD_eq fun i hi => by simp [rspA, rspWord, BitVec.getLsbD_extractLsb']; grind

@[simp] theorem rspD_rspWord (op : BitVec 4) (st : BitVec 3) (a : Byte) (d : Payload) :
    rspD (rspWord op st a d) = d := by
  exact BitVec.eq_of_getLsbD_eq fun i hi => by simp [rspD, rspWord, BitVec.getLsbD_extractLsb']; grind

/-! ## The frame word -/

@[simp] theorem frameSof_frameWord (s t : Byte) (p : Payload) (c e : Byte) :
    frameSof (frameWord s t p c e) = s := by
  exact BitVec.eq_of_getLsbD_eq fun i hi => by simp [frameSof, frameWord, BitVec.getLsbD_extractLsb']; grind

@[simp] theorem frameType_frameWord (s t : Byte) (p : Payload) (c e : Byte) :
    frameType (frameWord s t p c e) = t := by
  exact BitVec.eq_of_getLsbD_eq fun i hi => by simp [frameType, frameWord, BitVec.getLsbD_extractLsb']; grind

@[simp] theorem framePayload_frameWord (s t : Byte) (p : Payload) (c e : Byte) :
    framePayload (frameWord s t p c e) = p := by
  exact BitVec.eq_of_getLsbD_eq fun i hi => by simp [framePayload, frameWord, BitVec.getLsbD_extractLsb']; grind

@[simp] theorem frameChk_frameWord (s t : Byte) (p : Payload) (c e : Byte) :
    frameChk (frameWord s t p c e) = c := by
  exact BitVec.eq_of_getLsbD_eq fun i hi => by simp [frameChk, frameWord, BitVec.getLsbD_extractLsb']; grind

@[simp] theorem frameEof_frameWord (s t : Byte) (p : Payload) (c e : Byte) :
    frameEof (frameWord s t p c e) = e := by
  exact BitVec.eq_of_getLsbD_eq fun i hi => by simp [frameEof, frameWord, BitVec.getLsbD_extractLsb']; grind

/-! ## The payload's bytes -/

@[simp] theorem unbe64_be64 (p : Payload) : unbe64 (be64 p) = p := by
  exact BitVec.eq_of_getLsbD_eq fun i hi => by simp [unbe64, be64]; grind

@[simp] theorem be64_unbe64 (s : Vector Byte 8) : be64 (unbe64 s) = s := by
  apply Vector.ext
  intro i hi
  apply BitVec.eq_of_getLsbD_eq
  intro j hj
  have : i = 0 ∨ i = 1 ∨ i = 2 ∨ i = 3 ∨ i = 4 ∨ i = 5 ∨ i = 6 ∨ i = 7 := by omega
  rcases this with rfl | rfl | rfl | rfl | rfl | rfl | rfl | rfl <;>
    · simp [unbe64, be64, BitVec.getLsbD_extractLsb']
      grind

end Sys2Proof.Machine
end

