-- ==== Sys2Proof/Laws/Codec.lean ====
section
/-!
SUPPORT. The bytes of a buffer written out, and the bytes of an encoded frame the checksum covers (41_frame_codec.md R80,
R81).
-/

namespace Sys2Proof.Machine

/-- A buffer is its twelve bytes. -/
theorem buffer_eq_bytes (f : Buffer) :
    f = #v[f[0], f[1], f[2], f[3], f[4], f[5], f[6], f[7], f[8], f[9], f[10], f[11]] := by
  apply Vector.ext
  intro i hi
  have : i = 0 ∨ i = 1 ∨ i = 2 ∨ i = 3 ∨ i = 4 ∨ i = 5 ∨ i = 6 ∨ i = 7 ∨ i = 8 ∨ i = 9 ∨ i = 10 ∨ i = 11 := by omega
  rcases this with rfl | rfl | rfl | rfl | rfl | rfl | rfl | rfl | rfl | rfl | rfl | rfl <;> rfl

@[simp] theorem crcCovered_encodeFrame (c : Params) (t : Byte) (p : Payload) :
    crcCovered (encodeFrame c t p) = crcInput t p := rfl

end Sys2Proof.Machine
end

