-- ==== Sys2Proof/Laws/Crc.lean ====
section
/-!
SUPPORT. The checksum loop (40_crc8.md R66, R67): it is linear over exclusive or, and it runs over a concatenation in
two parts.
-/

namespace Sys2Proof.Machine

/-- Regrouping four terms of an exclusive or. -/
theorem xor_four (a b c d : Byte) : (a ^^^ b) ^^^ (c ^^^ d) = (a ^^^ c) ^^^ (b ^^^ d) :=
  BitVec.eq_of_getLsbD_eq fun i _ => by simp [Bool.xor_left_comm]

/-- One turn of the loop distributes over exclusive or: the feedback is fixed by one bit. -/
theorem crcShift_xor (c e : Byte) : crcShift (c ^^^ e) = crcShift c ^^^ crcShift e := by
  rw [show crcShift (c ^^^ e) = ((c <<< 1) ^^^ (e <<< 1)) ^^^
      (if c.getLsbD 7 ^^ e.getLsbD 7 then crcPoly else 0) by
    unfold crcShift; rw [BitVec.getLsbD_xor, BitVec.shiftLeft_xor_distrib]; split <;> simp]
  unfold crcShift
  cases c.getLsbD 7 <;> cases e.getLsbD 7 <;>
    exact BitVec.eq_of_getLsbD_eq fun i _ => by simp [Bool.xor_left_comm, Bool.xor_comm]

theorem crcShifts_xor (n : Nat) (c e : Byte) : crcShifts n (c ^^^ e) = crcShifts n c ^^^ crcShifts n e := by
  induction n generalizing c e with
  | zero => rfl
  | succ n ih => simp only [crcShifts, crcShift_xor, ih]

/-- A byte step distributes over exclusive or in both arguments at once. -/
theorem crcStep_xor (c e b f : Byte) : crcStep (c ^^^ e) (b ^^^ f) = crcStep c b ^^^ crcStep e f := by
  simp only [crcStep, xor_four c e b f, crcShifts_xor]

theorem crcFrom_append (c : Byte) (m n : List Byte) : crcFrom c (m ++ n) = crcFrom (crcFrom c m) n :=
  List.foldl_append ..

@[simp] theorem crcFrom_nil (c : Byte) : crcFrom c [] = c := rfl

@[simp] theorem crcFrom_cons (c b : Byte) (m : List Byte) : crcFrom c (b :: m) = crcFrom (crcStep c b) m := rfl

end Sys2Proof.Machine
end

