-- ==== Sys2Proof/Laws/Step.lean ====
section
/-!
SUPPORT. What a step can do, said once: an inversion lemma for each step of `Framer` and `Link`, for each meaning, for a
turn and for a step of the whole machine (42_link_operations.md R108; 20_memory.md R37).
-/

namespace Sys2Proof.Machine

/-! ## Steps of `Framer` -/

theorem put_eq_some {s t : State} :
    s.put = some t ↔ ∃ h : s.txi.toNat < frameLen,
      t = { s with txq := s.txq ++ [readByte s.txbuf ⟨s.txi.toNat, h⟩], txi := s.txi + 1 } := by
  unfold State.put
  by_cases h : s.txi.toNat < frameLen <;> simp [h, State.txPut, eq_comm]

theorem drain_eq_some {s t : State} :
    s.drain = some t ↔ s.txi.toNat = frameLen ∧ s.txq = [] ∧ t = s.complete .ok := by
  unfold State.drain
  have := s.txDrained_eq_true
  split <;> grind

theorem take_eq_some {s t : State} :
    s.take = some t ↔ ∃ (h : s.rxc.toNat < frameLen) (b : Byte) (rest : List Byte), s.rxq = b :: rest ∧
      t = { s with rxq := rest, rxbuf := writeByte s.rxbuf ⟨s.rxc.toNat, h⟩ b, rxc := s.rxc + 1 } := by
  unfold State.take State.rxTake
  by_cases h : s.rxc.toNat < frameLen <;> cases hq : s.rxq <;> simp [h, eq_comm]

theorem attemptFailed_cases (r : Status) (s : State) :
    ((s.att + 1).toNat = s.params.maxAttempts.toNat ∧ s.params.flushOnFinal = true ∧
      s.attemptFailed r = { s with att := s.att + 1, rxq := [] }.complete r) ∨
    ((s.att + 1).toNat = s.params.maxAttempts.toNat ∧ s.params.flushOnFinal = false ∧
      s.attemptFailed r = { s with att := s.att + 1 }.complete r) ∨
    ((s.att + 1).toNat ≠ s.params.maxAttempts.toNat ∧
      s.attemptFailed r = { s with att := s.att + 1, rxq := [], rxc := 0 }) := by
  unfold State.attemptFailed
  by_cases h : (s.att + 1).toNat = s.params.maxAttempts.toNat
  · cases hf : s.params.flushOnFinal
    · exact .inr (.inl ⟨h, rfl, by simp only [h, hf, if_true]; rfl⟩)
    · exact .inl ⟨h, rfl, by simp only [h, hf, if_true]; rfl⟩
  · exact .inr (.inr ⟨h, by simp only [h, if_false]; rfl⟩)

theorem check_eq_some {s t : State} :
    s.check = some t ↔ s.rxc.toNat = frameLen ∧
      ((∃ ty p, decodeFrame s.params s.rxbuf = .ok ty p ∧ (s.op = opFrmRecv ∨ s.op = opFrmRsync) ∧
          t = s.completeOk ty p) ∨
       (∃ r, (decodeFrame s.params s.rxbuf).FailsWith r ∧
          ((s.op = opFrmRecv ∧ t = s.complete r) ∨
           (s.op ≠ opFrmRecv ∧ s.op = opFrmRsync ∧ t = s.attemptFailed r)))) := by
  unfold State.check State.windowOk State.windowBad Verdict.FailsWith
  by_cases h : s.rxc.toNat = frameLen <;> by_cases ho : s.op = opFrmRecv <;> by_cases hs : s.op = opFrmRsync <;>
    cases hv : decodeFrame s.params s.rxbuf <;> simp [h, ho, hs, eq_comm]
  all_goals grind

/-- The steps `Framer` takes by itself (R108): put, drain, take, check. -/
theorem framerStep_cases {s t : State} (h : s.framerStep = some t) :
    (s.phase = .tx ∧ s.put = some t) ∨ (s.phase = .tx ∧ s.drain = some t) ∨
    (s.phase = .rx ∧ s.take = some t) ∨ (s.phase = .rx ∧ s.check = some t) := by
  unfold State.framerStep at h
  split at h
  · cases h
  · split at h <;> simp_all
  · split at h <;> simp_all

/-! ## Steps of `Link` -/

theorem linkTimeout_eq_some {s t : State} :
    s.linkTimeout = some t ↔
      s.phase = .rx ∧ s.rxc.toNat < frameLen ∧ s.rxq = [] ∧ t = s.complete .timeout := by
  unfold State.linkTimeout
  have := s.rxAvail_eq_false
  split <;> grind

theorem linkFail_eq_some {s t : State} {keep : Nat} :
    s.linkFail keep = some t ↔
      (s.phase = .tx ∧ t = (s.cutTx keep).complete .ioFail) ∨
      (s.phase = .rx ∧ s.rxc.toNat < frameLen ∧ t = s.complete .ioFail) := by
  unfold State.linkFail
  cases s.phase <;> simp [eq_comm]

/-- The steps of `Link` (R37). -/
theorem linkStep_cases {s t : State} {l : LinkStep} (h : s.linkStep l = some t) :
    (∃ b, l = .deliver b ∧ t = s.deliver [b]) ∨
    (l = .wireOut ∧ ∃ b rest, s.txq = b :: rest ∧ t = { s with wire := s.wire ++ [b], txq := rest }) ∨
    (l = .timeout ∧ s.phase = .rx ∧ s.rxc.toNat < frameLen ∧ s.rxq = [] ∧ t = s.complete .timeout) ∨
    (∃ keep, l = .fail keep ∧ s.phase = .tx ∧ t = (s.cutTx keep).complete .ioFail) ∨
    (∃ keep, l = .fail keep ∧ s.phase = .rx ∧ s.rxc.toNat < frameLen ∧ t = s.complete .ioFail) := by
  cases l with
  | deliver b => exact .inl ⟨b, rfl, (Option.some.inj h).symm⟩
  | wireOut => exact .inr (.inl ⟨rfl, State.wireOut_eq_some.1 h⟩)
  | timeout => exact .inr (.inr (.inl ⟨rfl, linkTimeout_eq_some.1 h⟩))
  | fail keep =>
    rcases linkFail_eq_some.1 h with ⟨hp, ht⟩ | ⟨hp, hr, ht⟩
    · exact .inr (.inr (.inr (.inl ⟨keep, rfl, hp, ht⟩)))
    · exact .inr (.inr (.inr (.inr ⟨keep, rfl, hp, hr, ht⟩)))

/-! ## Meanings -/

theorem execRsp_eq_next {op : BitVec 4} {st : BitVec 3} {a : Byte} {d : Payload} {s t : State} :
    execRsp op st a d s = .next t ↔ s.rspq.head? = some ⟨op, st, a, d⟩ ∧ s.takeResponse = some t := by
  unfold execRsp State.takeResponse
  cases s.rspq with
  | nil => simp
  | cons r rest => by_cases hr : r = ⟨op, st, a, d⟩ <;> simp [hr]

/-- What a meaning can do when it answers a next state: one case per instruction, with the state of the block it needs. -/
theorem exec_cases {i : Instr} {s t : State} (h : exec i s = .next t) :
    (i = .crcInit ∧ s.phase = .idle ∧
      t = { s with crc := crcInitValue }.respond opCrcInit Status.ok.code none none) ∨
    (∃ a, i = .crcUpd a ∧ s.phase = .idle ∧
      t = { s with crc := crcStep s.crc a }.respond opCrcUpd Status.ok.code none none) ∨
    (i = .crcGet ∧ s.phase = .idle ∧
      t = s.respond opCrcGet Status.ok.code (some (s.crc ^^^ crcXorOut)) none) ∨
    (∃ ty p, i = .frmSend ty p ∧ s.phase = .idle ∧
      t = { s with op := opFrmSend, txbuf := encodeFrame s.params ty p, txi := 0, phase := .tx }) ∨
    (i = .frmRecv ∧ s.phase = .idle ∧ t = { s with rvalid := false, op := opFrmRecv, rxc := 0, phase := .rx }) ∨
    (i = .frmRsync ∧ s.phase = .idle ∧
      t = { s with rvalid := false, op := opFrmRsync, att := 0, rxc := 0, phase := .rx }) ∨
    (i = .frmFlush ∧ s.phase = .idle ∧
      t = { s with rxq := [], op := opFrmFlush, status := .ok }.respond opFrmFlush Status.ok.code none none) ∨
    (∃ sof ty p chk eof, i = .frame sof ty p chk eof ∧ t = s.deliver (frameBytes sof ty p chk eof).toList) ∨
    (∃ op st a d, i = .rsp op st a d ∧ s.rspq.head? = some ⟨op, st, a, d⟩ ∧ s.takeResponse = some t) := by
  cases i <;> simp only [exec, execCrcInit, execCrcUpd, execCrcGet, execFrmSend, execFrmRecv, execFrmRsync, execFrmFlush,
    whenIdle_eq_next, execFrame, execRsp_eq_next] at h <;>
    simp [eq_comm, State.clearValid, State.rxFlush] at h ⊢
  all_goals exact h

/-! ## Turns and steps -/

theorem ifEnabled_eq_next {o : Option State} {t : State} : ifEnabled o = .next t ↔ o = some t := by
  cases o <;> simp [ifEnabled]

theorem issueNext_eq_next {s t : State} :
    issueNext s = .next t ↔
      ∃ w rest, s.program = w :: rest ∧ ∃ i, decodeCmd w = .ok i ∧ exec i { s with program := rest } = .next t := by
  unfold issueNext
  cases s.program with
  | nil => simp
  | cons w rest => cases hd : decodeCmd w <;> simp [hd]

/-- What one turn can do when it answers a next state. -/
theorem takeTurn_cases {n : Turn} {s t : State} (h : takeTurn n s = .next t) :
    (n = .host ∧ ∃ w rest, s.program = w :: rest ∧ ∃ i, decodeCmd w = .ok i ∧
      exec i { s with program := rest } = .next t) ∨
    (n = .response ∧ s.takeResponse = some t) ∨
    (∃ r, n = .read r ∧ s.hostRead r = .next t) ∨
    (n = .framer ∧ s.framerStep = some t) ∨
    (∃ l, n = .link l ∧ s.linkStep l = some t) ∨
    (∃ w, n = .frame w ∧ exec (decodeFrameWord w) s = .next t) := by
  cases n <;> simp only [takeTurn, issueNext_eq_next, ifEnabled_eq_next] at h <;> simp <;> exact h

/-- A step takes the scheduled turn, or the default turn where none is laid down, or leaves a state in which nothing is
enabled as it is. -/
theorem step_cases {s t : State} (h : step s = .next t) :
    (∃ n rest, s.sched = n :: rest ∧ takeTurn n { s with sched := rest } = .next t) ∨
    (s.sched = [] ∧ ∃ n, s.defaultTurn = some n ∧ takeTurn n s = .next t) ∨
    (s.sched = [] ∧ s.defaultTurn = none ∧ t = s) := by
  unfold step stepOnce at h
  split at h
  · rename_i n rest hs
    exact .inl ⟨n, rest, hs, h⟩
  · rename_i hs
    split at h
    · rename_i n hn
      exact .inr (.inl ⟨hs, n, hn, h⟩)
    · rename_i hn
      exact .inr (.inr ⟨hs, hn, by cases h; rfl⟩)

/-- A scheduled turn is the one the step takes, and is used up. -/
@[simp] theorem step_scheduled (n : Turn) (s : State) : step (s.scheduled n) = takeTurn n s := rfl

/-- The turns a step takes by default. -/
theorem defaultTurn_cases {s : State} {n : Turn} (h : s.defaultTurn = some n) :
    (n = .framer ∧ ∃ t, s.framerStep = some t) ∨
    (n = .link .wireOut ∧ s.phase = .tx ∧ s.txq ≠ []) ∨
    (n = .link .timeout ∧ ∃ t, s.linkTimeout = some t) ∨
    (n = .host ∧ s.phase = .idle ∧ s.program ≠ []) := by
  unfold State.defaultTurn at h
  split at h
  · rename_i hf
    exact .inl ⟨(Option.some.inj h).symm, Option.isSome_iff_exists.1 hf⟩
  · split at h <;> rename_i hp <;> split at h <;> rename_i hc <;> cases h
    · exact .inr (.inl ⟨rfl, hp, by simpa [State.txDrained] using hc⟩)
    · exact .inr (.inr (.inl ⟨rfl, Option.isSome_iff_exists.1 hc⟩))
    · exact .inr (.inr (.inr ⟨rfl, hp, by simpa using hc⟩))

/-- A property every turn keeps, whatever is scheduled and whatever `Host` has still to issue, every step keeps. -/
theorem step_keeps {P : State → Prop} (hsched : ∀ s rest, P s → P { s with sched := rest })
    (hturn : ∀ n s t, P s → takeTurn n s = .next t → P t) {s t : State} (hs : P s) (h : step s = .next t) : P t := by
  rcases step_cases h with ⟨n, rest, -, h⟩ | ⟨-, n, -, h⟩ | ⟨-, -, rfl⟩
  · exact hturn n _ t (hsched s rest hs) h
  · exact hturn n s t hs h
  · exact hs

end Sys2Proof.Machine
end

