-- ==== Sys2Proof/Laws/Moves.lean ====
section
/-!
SUPPORT. Every move of the machine, one constructor each, with what it needs and what it leaves: the rows of
42_link_operations.md R108 and of 20_memory.md R37, and the transactions of `Host`. A proof about every step is a case
analysis on `Move`.
-/

namespace Sys2Proof.Machine

/-- One turn's move from a state to the next. -/
inductive Move : Turn → State → State → Prop where
  | crcInit {s : State} {w : CmdWord} {more : List CmdWord} (idle : s.phase = .idle) (next : s.program = w :: more)
      (dec : decodeCmd w = .ok .crcInit) :
      Move .host s ({ s with program := more, crc := crcInitValue }.respond opCrcInit Status.ok.code none none)
  | crcUpd {s : State} {w : CmdWord} {more : List CmdWord} {x : Byte} (idle : s.phase = .idle)
      (next : s.program = w :: more) (dec : decodeCmd w = .ok (.crcUpd x)) :
      Move .host s ({ s with program := more, crc := crcStep s.crc x }.respond opCrcUpd Status.ok.code none none)
  | crcGet {s : State} {w : CmdWord} {more : List CmdWord} (idle : s.phase = .idle) (next : s.program = w :: more)
      (dec : decodeCmd w = .ok .crcGet) :
      Move .host s
        ({ s with program := more }.respond opCrcGet Status.ok.code (some (s.crc ^^^ crcXorOut)) none)
  | frmSend {s : State} {w : CmdWord} {more : List CmdWord} {ty : Byte} {p : Payload} (idle : s.phase = .idle)
      (next : s.program = w :: more) (dec : decodeCmd w = .ok (.frmSend ty p)) :
      Move .host s { s with program := more, op := opFrmSend, txbuf := encodeFrame s.params ty p, txi := 0, phase := .tx }
  | frmRecv {s : State} {w : CmdWord} {more : List CmdWord} (idle : s.phase = .idle) (next : s.program = w :: more)
      (dec : decodeCmd w = .ok .frmRecv) :
      Move .host s { s with program := more, rvalid := false, op := opFrmRecv, rxc := 0, phase := .rx }
  | frmRsync {s : State} {w : CmdWord} {more : List CmdWord} (idle : s.phase = .idle) (next : s.program = w :: more)
      (dec : decodeCmd w = .ok .frmRsync) :
      Move .host s { s with program := more, rvalid := false, op := opFrmRsync, att := 0, rxc := 0, phase := .rx }
  | frmFlush {s : State} {w : CmdWord} {more : List CmdWord} (idle : s.phase = .idle) (next : s.program = w :: more)
      (dec : decodeCmd w = .ok .frmFlush) :
      Move .host s
        ({ s with program := more, rxq := [], op := opFrmFlush, status := .ok }.respond
          opFrmFlush Status.ok.code none none)
  | frame {s : State} (w : FrameWord) :
      Move (.frame w) s (s.deliver
        (frameBytes (frameSof w) (frameType w) (framePayload w) (frameChk w) (frameEof w)).toList)
  | response {s : State} {r : Response} {rest : List Response} (head : s.rspq = r :: rest) :
      Move .response s { s with rspq := rest, hostLog := s.hostLog ++ [.response r] }
  | read {s : State} (r : HostReg) (may : r = .busy ∨ s.phase = .idle) :
      Move (.read r) s { s with hostLog := s.hostLog ++ [.register r (s.hostValue r)], draws := s.draws + 1 }
  | put {s : State} (tx : s.phase = .tx) (h : s.txi.toNat < frameLen) :
      Move .framer s { s with txq := s.txq ++ [readByte s.txbuf ⟨s.txi.toNat, h⟩], txi := s.txi + 1 }
  | drain {s : State} (tx : s.phase = .tx) (full : s.txi.toNat = frameLen) (drained : s.txq = []) :
      Move .framer s (s.complete .ok)
  | take {s : State} {b : Byte} {rest : List Byte} (rx : s.phase = .rx) (h : s.rxc.toNat < frameLen)
      (head : s.rxq = b :: rest) :
      Move .framer s { s with rxq := rest, rxbuf := writeByte s.rxbuf ⟨s.rxc.toNat, h⟩ b, rxc := s.rxc + 1 }
  | accept {s : State} {ty : Byte} {p : Payload} (rx : s.phase = .rx) (full : s.rxc.toNat = frameLen)
      (good : decodeFrame s.params s.rxbuf = .ok ty p) (op : s.op = opFrmRecv ∨ s.op = opFrmRsync) :
      Move .framer s (s.completeOk ty p)
  | reject {s : State} {r : Status} (rx : s.phase = .rx) (full : s.rxc.toNat = frameLen)
      (bad : (decodeFrame s.params s.rxbuf).FailsWith r) (op : s.op = opFrmRecv) :
      Move .framer s (s.complete r)
  | giveUpFlushed {s : State} {r : Status} (rx : s.phase = .rx) (full : s.rxc.toNat = frameLen)
      (bad : (decodeFrame s.params s.rxbuf).FailsWith r) (op : s.op = opFrmRsync)
      (last : (s.att + 1).toNat = s.params.maxAttempts.toNat) (fof : s.params.flushOnFinal = true) :
      Move .framer s ({ s with att := s.att + 1, rxq := [] }.complete r)
  | giveUp {s : State} {r : Status} (rx : s.phase = .rx) (full : s.rxc.toNat = frameLen)
      (bad : (decodeFrame s.params s.rxbuf).FailsWith r) (op : s.op = opFrmRsync)
      (last : (s.att + 1).toNat = s.params.maxAttempts.toNat) (fof : s.params.flushOnFinal = false) :
      Move .framer s ({ s with att := s.att + 1 }.complete r)
  | retry {s : State} {r : Status} (rx : s.phase = .rx) (full : s.rxc.toNat = frameLen)
      (bad : (decodeFrame s.params s.rxbuf).FailsWith r) (op : s.op = opFrmRsync)
      (more : (s.att + 1).toNat ≠ s.params.maxAttempts.toNat) :
      Move .framer s { s with att := s.att + 1, rxq := [], rxc := 0 }
  | deliver {s : State} (b : Byte) : Move (.link (.deliver b)) s (s.deliver [b])
  | wireOut {s : State} {b : Byte} {rest : List Byte} (head : s.txq = b :: rest) :
      Move (.link .wireOut) s { s with wire := s.wire ++ [b], txq := rest }
  | timeout {s : State} (rx : s.phase = .rx) (short : s.rxc.toNat < frameLen) (starved : s.rxq = []) :
      Move (.link .timeout) s (s.complete .timeout)
  | failTx {s : State} (keep : Nat) (tx : s.phase = .tx) :
      Move (.link (.fail keep)) s ((s.cutTx keep).complete .ioFail)
  | failRx {s : State} (keep : Nat) (rx : s.phase = .rx) (short : s.rxc.toNat < frameLen) :
      Move (.link (.fail keep)) s (s.complete .ioFail)

/-- `Framer`'s step is one of its moves. -/
theorem framerStep_move {s t : State} (h : s.framerStep = some t) : Move .framer s t := by
  rcases framerStep_cases h with ⟨hp, h⟩ | ⟨hp, h⟩ | ⟨hp, h⟩ | ⟨hp, h⟩
  · obtain ⟨hi, rfl⟩ := put_eq_some.1 h
    exact .put hp hi
  · obtain ⟨hi, hq, rfl⟩ := drain_eq_some.1 h
    exact .drain hp hi hq
  · obtain ⟨hi, b, rest, hq, rfl⟩ := take_eq_some.1 h
    exact .take hp hi hq
  · obtain ⟨hi, ⟨ty, p, hv, ho, rfl⟩ | ⟨r, hv, ⟨ho, rfl⟩ | ⟨-, ho, rfl⟩⟩⟩ := check_eq_some.1 h
    · exact .accept hp hi hv ho
    · exact .reject hp hi hv ho
    · rcases attemptFailed_cases r s with ⟨ha, hf, he⟩ | ⟨ha, hf, he⟩ | ⟨ha, he⟩ <;> rw [he]
      · exact .giveUpFlushed hp hi hv ho ha hf
      · exact .giveUp hp hi hv ho ha hf
      · exact .retry hp hi hv ho ha

/-- `Link`'s step is one of its moves. -/
theorem linkStep_move {s t : State} {l : LinkStep} (h : s.linkStep l = some t) : Move (.link l) s t := by
  rcases linkStep_cases h with ⟨b, rfl, rfl⟩ | ⟨rfl, b, rest, hq, rfl⟩ | ⟨rfl, hp, hi, hq, rfl⟩ |
    ⟨keep, rfl, hp, rfl⟩ | ⟨keep, rfl, hp, hi, rfl⟩
  · exact .deliver b
  · exact .wireOut hq
  · exact .timeout hp hi hq
  · exact .failTx keep hp
  · exact .failRx keep hp hi

/-- A command the decoder gives is one of the seven operations. -/
theorem decodeCmd_cases {w : CmdWord} {i : Instr} (h : decodeCmd w = .ok i) :
    i = .crcInit ∨ (∃ x, i = .crcUpd x) ∨ i = .crcGet ∨ (∃ ty p, i = .frmSend ty p) ∨ i = .frmRecv ∨ i = .frmRsync ∨
      i = .frmFlush := by
  unfold decodeCmd at h
  split at h <;> cases h <;> simp

/-- A turn that answers a next state is a move. -/
theorem takeTurn_move {n : Turn} {s t : State} (h : takeTurn n s = .next t) : Move n s t := by
  rcases takeTurn_cases h with ⟨rfl, w, more, hp, i, hd, he⟩ | ⟨rfl, he⟩ | ⟨r, rfl, he⟩ | ⟨rfl, he⟩ | ⟨l, rfl, he⟩ |
    ⟨w, rfl, he⟩
  · have hi := decodeCmd_cases hd
    rcases exec_cases he with ⟨rfl, idle, rfl⟩ | ⟨a, rfl, idle, rfl⟩ | ⟨rfl, idle, rfl⟩ | ⟨ty, p, rfl, idle, rfl⟩ |
      ⟨rfl, idle, rfl⟩ | ⟨rfl, idle, rfl⟩ | ⟨rfl, idle, rfl⟩ | ⟨_, _, _, _, _, rfl, -⟩ | ⟨_, _, _, _, rfl, -⟩
    · exact .crcInit idle hp hd
    · exact .crcUpd idle hp hd
    · exact .crcGet idle hp hd
    · exact .frmSend idle hp hd
    · exact .frmRecv idle hp hd
    · exact .frmRsync idle hp hd
    · exact .frmFlush idle hp hd
    · simp at hi
    · simp at hi
  · obtain ⟨r, rest, hr, rfl⟩ := State.takeResponse_eq_some.1 he
    exact .response hr
  · obtain ⟨may, rfl⟩ := State.hostRead_eq_next.1 he
    exact .read r may
  · exact framerStep_move he
  · exact linkStep_move he
  · cases he
    exact .frame w

/-- A step is the move of the scheduled turn, or of the default turn where none is laid down, or leaves the state as it
is. -/
theorem step_move {s t : State} (h : step s = .next t) :
    (∃ n, (s.sched.head? = some n ∨ (s.sched = [] ∧ s.defaultTurn = some n)) ∧
      Move n { s with sched := s.sched.tail } t) ∨
    (s.sched = [] ∧ s.defaultTurn = none ∧ t = s) := by
  rcases step_cases h with ⟨n, rest, hs, h⟩ | ⟨hs, n, hn, h⟩ | ⟨hs, hn, rfl⟩
  · exact .inl ⟨n, .inl (by simp [hs]), by rw [hs]; exact takeTurn_move h⟩
  · refine .inl ⟨n, .inr ⟨hs, hn⟩, ?_⟩
    have : { s with sched := s.sched.tail } = s := by rw [hs, List.tail_nil, ← hs]
    rw [this]
    exact takeTurn_move h
  · exact .inr ⟨hs, hn, rfl⟩

/-! ## The turn a step takes, and what it issues -/

theorem nextTurn_eq_some {s : State} {n : Turn} :
    s.nextTurn = some n ↔ s.sched.head? = some n ∨ (s.sched = [] ∧ s.defaultTurn = some n) := by
  unfold State.nextTurn
  cases s.sched <;> simp

/-- A turn of `Host` on an idle block issues the operation its command word selects. -/
theorem issues_of_nextTurn {s : State} {w : CmdWord} {more : List CmdWord} {i : Instr} (turn : s.nextTurn = some .host)
    (idle : s.phase = .idle) (next : s.program = w :: more) (dec : decodeCmd w = .ok i) : s.Issues i := by
  refine ⟨(State.busy_eq_false s).2 idle, w, more, next, dec, ?_⟩
  unfold State.nextTurn at turn
  cases hs : s.sched <;> simp_all

/-- A step that issues an operation is the turn of `Host`, and runs the operation's meaning. -/
theorem step_of_issues {s : State} {i : Instr} (h : s.Issues i) :
    s.nextTurn = some .host ∧ s.phase = .idle ∧
      ∃ w more, s.program = w :: more ∧ decodeCmd w = .ok i ∧
        step s = exec i { s with program := more, sched := s.sched.tail } := by
  obtain ⟨hb, w, more, hp, hd, hs⟩ := h
  have hi := (State.busy_eq_false s).1 hb
  have hdef : s.defaultTurn = some .host := by simp [State.defaultTurn, State.framerStep, hi, hp]
  refine ⟨?_, hi, w, more, hp, hd, ?_⟩
  · rcases hs with hs | ⟨later, hs⟩ <;> simp [State.nextTurn, hs, hdef]
  · rcases hs with hs | ⟨later, hs⟩
    · simp only [step, stepOnce, hs, hdef, takeTurn, issueNext, hp, hd, List.tail_nil]
    · simp [step, stepOnce, hs, takeTurn, issueNext, hp, hd]

/-- A step issues at most one operation. -/
theorem issues_unique {s : State} {i j : Instr} (hi : s.Issues i) (hj : s.Issues j) : i = j := by
  obtain ⟨-, -, w, more, hp, hd, -⟩ := step_of_issues hi
  obtain ⟨-, -, w', more', hp', hd', -⟩ := step_of_issues hj
  rw [hp] at hp'
  obtain ⟨rfl, rfl⟩ := List.cons.inj hp'
  rw [hd] at hd'
  cases hd'
  rfl

/-- A window that does not decode fails with its verdict's outcome. -/
theorem failsWith_iff {v : Verdict} {r : Status} : v.FailsWith r ↔ v.outcome = r ∧ r ≠ .ok := by
  unfold Verdict.FailsWith Verdict.outcome
  cases v <;> cases r <;> simp

theorem outcome_eq_ok_iff {v : Verdict} : v.outcome = .ok ↔ ∃ t p, v = .ok t p := by
  cases v <;> simp [Verdict.outcome]

end Sys2Proof.Machine
end

