-- ==== Sys2Proof/Laws/PerInstr.lean ====
section
/-!
SUPPORT. Facts about every instruction as syntax, one lemma per constructor. Family `EncodeFits`: the encoded word has no
bit above the width spec/opcode_table.json gives its row (30_encoding.md R58: words are of fixed size).
-/

namespace Sys2Proof.Laws.EncodeFits

/-- The encoding fits the row's width. -/
def Statement (i : Instr) : Prop := (encode i).bits < 2 ^ (encode i).nbits

theorem crcInit : Statement .crcInit := BitVec.isLt _
theorem crcUpd (a : Byte) : Statement (.crcUpd a) := BitVec.isLt _
theorem crcGet : Statement .crcGet := BitVec.isLt _
theorem frmSend (t : Byte) (p : Payload) : Statement (.frmSend t p) := BitVec.isLt _
theorem frmRecv : Statement .frmRecv := BitVec.isLt _
theorem frmRsync : Statement .frmRsync := BitVec.isLt _
theorem frmFlush : Statement .frmFlush := BitVec.isLt _
theorem frame (sof t : Byte) (p : Payload) (chk eof : Byte) : Statement (.frame sof t p chk eof) := BitVec.isLt _
theorem rsp (op : BitVec 4) (st : BitVec 3) (a : Byte) (d : Payload) : Statement (.rsp op st a d) := BitVec.isLt _

end Sys2Proof.Laws.EncodeFits
end

