-- ==== Sys2Proof/Tests/Slice0.lean ====
section
/-!
SUPPORT. Tests. Expected values are taken from 95_test_vectors.md (the vector is named at each test) and from the rules,
never from the model's own answers. The last part shows for each obligation that has hypotheses a state and operands
that meet them.
-/

namespace Sys2Proof.Tests

open Sys2Proof Sys2Proof.Machine

/-! ## Small states -/

/-- The example instantiation of 00_scope.md R7. -/
def ex : Params := ⟨0xA5, 0x03, .three, true, ⟨0⟩⟩

/-- K1 of 95_test_vectors.md. -/
def k1 : Buffer := #v[0xA5, 0x06, 0x01, 0x23, 0x45, 0x67, 0x89, 0xAB, 0xCD, 0xEF, 0xFB, 0x03]

/-- K2 of 95_test_vectors.md. -/
def k2 : Buffer := #v[0xA5, 0x07, 0x00, 0x00, 0x00, 0x00, 0xDE, 0xAD, 0xBE, 0xEF, 0xB0, 0x03]

/-- Twelve zero bytes, which do not start with the marker (V15). -/
def zeros : Buffer := #v[0, 0, 0, 0, 0, 0, 0, 0, 0, 0, 0, 0]

/-- The window of V28: K1 with the lowest bit of byte 9 flipped. -/
def badSum : Buffer := #v[0xA5, 0x06, 0x01, 0x23, 0x45, 0x67, 0x89, 0xAB, 0xCD, 0xEE, 0xFB, 0x03]

/-- The reset state of R24 with the example parameters, empty queues, and zeros where R24 leaves the value open. -/
def idle : State :=
  { State.reset with params := ex, typeRx := 0, payloadRx := 0, txbuf := zeros, rxbuf := zeros, rxq := [] }

/-- An idle block whose `Host` has these commands to issue. -/
def idleWith (program : List CmdWord) : State := { idle with program := program }

/-- A send of K1 with `i` bytes handed over, all of them still in `TXQ` (V24). -/
def sending (i : Nat) : State :=
  { idle with phase := .tx, op := 0x4, txbuf := k1, txi := BitVec.ofNat 4 i, txq := k1.toList.take i }

/-- The send of K1 with all its bytes on the wire (V24). -/
def drained : State := { sending 12 with txq := [], wire := k1.toList }

/-- A receive operation with `c` bytes of `window` taken and `rxq` waiting. -/
def receiving (op : BitVec 4) (c : Nat) (window : Buffer) (rxq : List Byte) : State :=
  { idle with phase := .rx, op := op, rxc := BitVec.ofNat 4 c, rxbuf := window, rxq := rxq }

/-- A resynchronisation after `n` failed attempts, its window full. -/
def resyncing (n : Nat) (window : Buffer) (rxq : List Byte) : State :=
  { receiving 0x6 12 window rxq with att := BitVec.ofNat 3 n }

/-- An idle block with K1 received. -/
def received : State :=
  { idle with op := 0x5, rvalid := true, rxc := 12, rxbuf := k1, typeRx := 0x06, payloadRx := 0x0123456789ABCDEF }

/-- What is asked of the state a step answers, `none` where it stops. -/
def got {α : Type} (f : State → α) : StepResult → Option α
  | .next s => some (f s)
  | .fault _ => none
  | .refused _ => none

/-- The reason of a refusal, `none` where the step answers a state. -/
def refusal : StepResult → Option Refusal
  | .next _ => none
  | .fault _ => none
  | .refused r => some r

/-- Operation code and outcome code of each waiting response. -/
def outcomes (s : State) : List (BitVec 4 × BitVec 3) := s.rspq.map fun r => (r.op, r.status)

/-! ## Well-formedness: each check refuses -/

theorem test_wf_frame : Instr.WellFormed ex (.frame 0xA5 0x06 0x0123456789ABCDEF 0xFB 0x03) := by decide +kernel
theorem test_wf_frame_sof : ¬ Instr.WellFormed ex (.frame 0xA4 0x06 0x0123456789ABCDEF 0xFB 0x03) := by decide
theorem test_wf_frame_eof : ¬ Instr.WellFormed ex (.frame 0xA5 0x06 0x0123456789ABCDEF 0xFB 0x04) := by decide
theorem test_wf_frame_chk : ¬ Instr.WellFormed ex (.frame 0xA5 0x06 0x0123456789ABCDEF 0xFA 0x03) := by decide +kernel
theorem test_wf_rsp : Instr.WellFormed ex (.rsp 0x5 0x4 0 0) := by decide
theorem test_wf_rsp_op : ¬ Instr.WellFormed ex (.rsp 0x8 0x0 0 0) := by decide
theorem test_wf_rsp_status : ¬ Instr.WellFormed ex (.rsp 0x5 0x5 0 0) := by decide
/-- `FRM.SEND` has no `TIMEOUT` (R121). -/
theorem test_wf_rsp_impossible : ¬ Instr.WellFormed ex (.rsp 0x4 0x3 0 0) := by decide

/-! ## Words written out: decoding and encoding -/

theorem test_decode_crcInit : decodeCmd 0x1000000000000000000 = .ok .crcInit := by decide        -- V12
theorem test_decode_crcUpd : decodeCmd 0x231FFFFFFFFFFFFFFFF = .ok (.crcUpd 0x31) := by decide    -- V12
theorem test_decode_crcUpd_zero : decodeCmd 0x2310000000000000000 = .ok (.crcUpd 0x31) := by decide  -- V12
theorem test_decode_crcGet : decodeCmd 0x3000000000000000000 = .ok .crcGet := by decide           -- V12
theorem test_decode_frmSend :                                                                       -- V24
    decodeCmd 0x4060123456789ABCDEF = .ok (.frmSend 0x06 0x0123456789ABCDEF) := by decide
theorem test_decode_frmRecv : decodeCmd 0x5000000000000000000 = .ok .frmRecv := by decide         -- V26
theorem test_decode_frmRsync : decodeCmd 0x6000000000000000000 = .ok .frmRsync := by decide       -- V32
theorem test_decode_frmFlush : decodeCmd 0x7000000000000000000 = .ok .frmFlush := by decide       -- V34
/-- A frame word bit by bit in R50's layout: SOF, TYPE, eight payload bytes, CHK, EOF. -/
theorem test_decode_frame :
    decodeFrameWord 0b101001010000011000000001001000110100010101100111100010011010101111001101111011111111101100000011
      = .frame 0xA5 0x06 0x0123456789ABCDEF 0xFB 0x03 := by decide
theorem test_decode_rsp :                                                                           -- V26
    decodeRsp 0x28060123456789ABCDEF = .ok (.rsp 0x5 0x0 0x06 0x0123456789ABCDEF) := by decide
theorem test_decode_rsp_status : decodeRsp 0x2C000000000000000000 = .ok (.rsp 0x5 0x4 0 0) := by decide -- V31
theorem test_reserved_zero : decodeCmd 0x0000000000000000000 = .error (.reservedOp 0x0) := by decide    -- V35
theorem test_reserved_eight : decodeCmd 0x8000000000000000000 = .error (.reservedOp 0x8) := by decide   -- V35
theorem test_reserved_last : decodeCmd 0xF060123456789ABCDEF = .error (.reservedOp 0xF) := by decide    -- V35
theorem test_reserved_status : decodeRsp 0x2D000000000000000000 = .error (.reservedStatus 0x5) := by decide -- R120
theorem test_reserved_rsp_op : decodeRsp 0x40000000000000000000 = .error (.reservedOp 0x8) := by decide     -- R53
theorem test_width : decodeWord 32 0 = .error (.noSuchWidth 32) := by decide                               -- R58

theorem test_encode_crcUpd : encode (.crcUpd 0x31) = ⟨76, 0x2310000000000000000⟩ := by decide     -- V12
theorem test_encode_frmSend :                                                                       -- V24
    encode (.frmSend 0x06 0x0123456789ABCDEF) = ⟨76, 0x4060123456789ABCDEF⟩ := by decide
theorem test_encode_rsp : encode (.rsp 0x3 0x0 0x4B 0) = ⟨79, 0x184B0000000000000000⟩ := by decide  -- V12
theorem test_encode_frame :                                                                         -- V13
    encode (.frame 0xA5 0x06 0x0123456789ABCDEF 0xFB 0x03) = ⟨96, 0xA5060123456789ABCDEFFB03⟩ := by decide

/-! ## The checksum and the codec -/

theorem test_crc_nine_bytes : crc8 [0x01, 0x02, 0x03, 0x04, 0x05, 0x06, 0x07, 0x08, 0x09] = 0xD6 := by decide +kernel  -- V6
theorem test_crc_one_byte : crc8 [0xA5] = 0xF3 := by decide                                                     -- V4
theorem test_encode_bytes : encodeFrame ex 0x06 0x0123456789ABCDEF = k1 := by decide +kernel                            -- V13
theorem test_decode_window : decodeFrame ex k2 = .ok 0x07 0x00000000DEADBEEF := by decide +kernel                       -- V14
theorem test_decode_zeros : decodeFrame ex zeros = .badFraming := by decide                                     -- V15
theorem test_decode_badSum : decodeFrame ex badSum = .badChecksum := by decide +kernel                                  -- V28
/-- The checksum is not looked at when a marker is wrong (V15). -/
theorem test_decode_both_wrong :
    decodeFrame ex #v[0xA5, 0x06, 0x01, 0x23, 0x45, 0x67, 0x89, 0xAB, 0xCD, 0xEF, 0x00, 0x04] = .badFraming := by
  decide
/-- Twelve equal bytes (V22). -/
theorem test_decode_equal_bytes :
    decodeFrame { ex with sof := 0x29, eof := 0x29 } (Vector.replicate 12 0x29) = .ok 0x29 0x2929292929292929 := by
  decide +kernel

/-! ## One step of each instruction -/

theorem test_crcInit : got State.crc (exec .crcInit { idle with crc := 0x5A }) = some 0xFF := by decide          -- R69
theorem test_crcUpd : got State.crc (exec (.crcUpd 0x31) idle) = some 0x93 := by decide                          -- V2
theorem test_crcUpd_zero : got State.crc (exec (.crcUpd 0x00) { idle with crc := 0x5A }) = some 0x0C := by decide -- V5
theorem test_crcGet :                                                                                             -- V1
    got (fun s => s.rspq.map Response.a) (exec .crcGet { idle with crc := 0xB4 }) = some [0x4B] := by decide
theorem test_crcGet_keeps : got State.crc (exec .crcGet { idle with crc := 0xB4 }) = some 0xB4 := by decide      -- V7
theorem test_frmSend :                                                                                            -- V24
    got (fun s => (s.op, s.txbuf, s.txi, s.phase)) (exec (.frmSend 0x06 0x0123456789ABCDEF) { idle with txi := 12 }) =
      some (0x4, k1, 0, .tx) := by decide +kernel
theorem test_frmRecv :                                                                                            -- V26
    got (fun s => (s.op, s.rvalid, s.rxc, s.phase)) (exec .frmRecv received) = some (0x5, false, 0, .rx) := by decide
theorem test_frmRecv_busy : refusal (exec .frmRecv (sending 3)) = some .busy := by decide                        -- R95
theorem test_frmRsync :                                                                                           -- R106
    got (fun s => (s.op, s.att, s.rvalid, s.rxc, s.phase)) (exec .frmRsync { received with att := 3 }) =
      some (0x6, 0, false, 0, .rx) := by decide
theorem test_frmFlush :                                                                                           -- V34
    got (fun s => (s.rxq, s.op, s.status, s.phase))
      (exec .frmFlush { idle with rxq := [0xAD, 0xBE, 0xEF, 0xB0, 0x03], status := .badFraming }) =
      some ([], 0x7, .ok, .idle) := by decide
theorem test_frmFlush_response :                                                                                  -- V34
    got outcomes (exec .frmFlush idle) = some [(0x7, 0)] := by decide
theorem test_frame :                                                                                              -- R37
    got State.rxq (exec (.frame 0xA5 0x06 0x0123456789ABCDEF 0xFB 0x03) { idle with rxq := [0x99] }) =
      some (0x99 :: k1.toList) := by decide
theorem test_rsp :                                                                                                -- R54
    got (fun s => (s.rspq, s.hostLog)) (exec (.rsp 0x3 0 0x4B 0) { idle with rspq := [⟨0x3, 0, 0x4B, 0⟩] }) =
      some ([], [.response ⟨0x3, 0, 0x4B, 0⟩]) := by decide
theorem test_rsp_none : refusal (exec (.rsp 0x3 0 0x4B 0) idle) = some .noSuchResponse := by decide              -- R95

/-! ## One step of the sequencer and of the link -/

theorem test_put :                                                                                                -- V24
    got (fun s => (s.txq, s.txi)) (step (sending 11)) = some (k1.toList, 12) := by decide
theorem test_drain :                                                                                              -- V24
    got (fun s => (s.status, s.phase, outcomes s)) (step drained) = some (.ok, .idle, [(0x4, 0)]) := by decide
theorem test_wire_out :                                                                                           -- R37
    got (fun s => (s.wire, s.txq)) (step (sending 12)) = some (k1.toList.take 1, k1.toList.drop 1) := by decide
theorem test_fail_sending :                                                                                       -- V25
    got (fun s => (s.txq, s.phase, s.txi, outcomes s))
      (step ({ drained with txq := k1.toList.drop 5, wire := k1.toList.take 5 }.scheduled (.link (.fail 2)))) =
      some ([0x67, 0x89], .idle, 12, [(0x4, 4)]) := by decide
theorem test_take :                                                                                               -- V30
    got (fun s => (readByte s.rxbuf 6, s.rxc, s.rxq)) (step (receiving 0x5 6 k1 [0x89])) = some (0x89, 7, []) := by
  decide
theorem test_timeout :                                                                                            -- V30
    got (fun s => (s.status, s.rxc, s.phase, outcomes s)) (step (receiving 0x5 7 k1 [])) =
      some (.timeout, 7, .idle, [(0x5, 3)]) := by decide
theorem test_fail_receiving :                                                                                     -- V31
    got (fun s => (s.status, s.rxc, outcomes s)) (step ((receiving 0x5 3 k1 [0x23]).scheduled (.link (.fail 0)))) =
      some (.ioFail, 3, [(0x5, 4)]) := by decide
theorem test_check_ok :                                                                                           -- V26
    got (fun s => (s.typeRx, s.payloadRx, s.rvalid, s.rspq)) (step (receiving 0x5 12 k1 [])) =
      some (0x06, 0x0123456789ABCDEF, true, [⟨0x5, 0, 0x06, 0x0123456789ABCDEF⟩]) := by decide +kernel
theorem test_check_recv_bad :                                                                                     -- V28
    got (fun s => (s.status, s.rvalid, outcomes s)) (step (receiving 0x5 12 badSum [])) =
      some (.badChecksum, false, [(0x5, 2)]) := by decide +kernel
theorem test_check_retry :                                                                                        -- V33
    got (fun s => (s.att, s.rxq, s.rxc, s.phase)) (step (resyncing 0 zeros [0x99])) = some (1, [], 0, .rx) := by decide
theorem test_check_bound_flush :                                                                                  -- P4
    got (fun s => (s.att, s.rxq, s.status, outcomes s)) (step (resyncing 2 badSum k1.toList)) =
      some (3, [], .badChecksum, [(0x6, 2)]) := by decide +kernel
theorem test_check_bound_keep :                                                                                   -- P4
    got (fun s => (s.att, s.rxq, s.status))
      (step { resyncing 2 badSum k1.toList with params := { ex with flushOnFinal := false } }) =
      some (3, k1.toList, .badChecksum) := by decide +kernel
theorem test_check_four :                                                                                         -- P4
    got (fun s => (s.att, s.rxq, s.phase))
      (step { resyncing 2 badSum k1.toList with params := { ex with maxAttempts := .four } }) =
      some (3, [], .rx) := by decide +kernel
theorem test_deliver_while_sending :                                                                              -- R44
    got State.rxq (step ((sending 3).scheduled (.link (.deliver 0x99)))) = some [0x99] := by decide
theorem test_read_status :                                                                                        -- R20
    got State.hostLog (step ({ idle with status := .timeout }.scheduled (.read .status))) =
      some [.register .status 3] := by decide
theorem test_reset_crc : State.reset.crc = 0xFF := by decide                                                      -- R24

/-! ## A word of the table runs as the first instruction after reset -/

theorem test_fetch_cmd : got State.crc (step (State.reset.withFetchWord 76 0x2310000000000000000)) = some 0x93 := by
  decide
theorem test_fetch_rsp :
    got State.hostLog (step (State.reset.withFetchWord 79 0x184B0000000000000000)) =
      some [.response ⟨0x3, 0, 0x4B, 0⟩] := by decide
theorem test_fetch_reserved :
    refusal (step (State.reset.withFetchWord 76 0x8000000000000000000)) = some (.reserved (.reservedOp 0x8)) := by decide

/-! ## Witnesses: for each obligation with hypotheses, states and operands that meet them -/

/-- A step answers a next state. -/
def Runs (r : StepResult) : Prop := ∃ t, r = .next t

theorem runs_of_got {r : StepResult} (h : (got (fun _ => ()) r).isSome = true) : Runs r := by
  cases r with
  | next t => exact ⟨t, rfl⟩
  | fault f => cases h
  | refused f => cases h

theorem next_of_got {α : Type} {f : State → α} {a : α} {r : StepResult} (h : got f r = some a) :
    ∃ t, r = .next t ∧ f t = a := by
  cases r with
  | next t => exact ⟨t, rfl, Option.some.inj h⟩
  | fault f => cases h
  | refused f => cases h

/-- A block with nothing to issue issues nothing. -/
theorem not_issues {s : State} (h : s.program = []) (i : Instr) : ¬ s.Issues i := by
  rintro ⟨-, w, rest, hp, -⟩
  rw [h] at hp
  cases hp

theorem witness_CrcInitSetsTheRegister : idle.busy = false ∧ Runs (exec .crcInit idle) :=
  ⟨by decide, runs_of_got (by decide)⟩
theorem witness_CrcUpdFeedsOneByte : idle.busy = false ∧ Runs (exec (.crcUpd 0xFF) idle) :=
  ⟨by decide, runs_of_got (by decide)⟩
theorem witness_CrcGetReportsTheChecksum : idle.busy = false ∧ idle.crc = 0xFF ∧ Runs (exec .crcGet idle) :=
  ⟨by decide, by decide, runs_of_got (by decide)⟩

/-- A checksum of two bytes by hand, ignored fields not zero. -/
def byHand : State :=
  { idleWith [cmdWord 0x1 0xFF 1, cmdWord 0x2 0x31 7, cmdWord 0x2 0x32 0, cmdWord 0x3 0x55 2, cmdWord 0x7 0 0] with
    sched := [.host, .host, .host, .host, .framer] }
theorem witness_CrcBlkReturnsTheChecksumOfItsBytes :
    byHand.busy = false ∧
    byHand.program = cmdWord 0x1 0xFF 1 :: ([(0x31, 7), (0x32, 0)].map fun x : Byte × Payload => cmdWord 0x2 x.1 x.2) ++
      cmdWord 0x3 0x55 2 :: [cmdWord 0x7 0 0] ∧
    byHand.sched = List.replicate 4 .host ++ [.framer] := by decide
theorem witness_CrcBlkReturnsTheChecksumOfItsBytes_empty :
    ({ idleWith [cmdWord 0x1 0 0, cmdWord 0x3 0 0] with sched := [.host, .host] } : State).busy = false ∧
    (idleWith [cmdWord 0x1 0 0, cmdWord 0x3 0 0]).program =
      cmdWord 0x1 0 0 :: (([] : List (Byte × Payload)).map fun x => cmdWord 0x2 x.1 x.2) ++ cmdWord 0x3 0 0 :: [] ∧
    [Turn.host, .host] = List.replicate 2 .host ++ [] := by decide

theorem witness_ChecksumLinearityAndResidue : ([0x06, 0x01] : List Byte).length = ([0x90, 0x00] : List Byte).length := rfl
theorem witness_ChecksumDetectsSmallErrors : (0 : Fin 80) ≠ 79 ∧ (0x01 : Byte) ≠ 0 ∧ (0xFF : Byte) ≠ 0 := by decide
theorem witness_DecodeTestsMarkersFirst :
    (readByte zeros 0 ≠ ex.sof ∨ readByte zeros 11 ≠ ex.eof) ∧
    (readByte badSum 0 = ex.sof ∧ readByte badSum 11 = ex.eof ∧
      crc8 ((badSum.toList.drop 1).take 9) ≠ readByte badSum 10) ∧
    (readByte k1 0 = ex.sof ∧ readByte k1 11 = ex.eof ∧ crc8 ((k1.toList.drop 1).take 9) = readByte k1 10) := by
  decide +kernel
theorem witness_AcceptedWindowsAreEncodedFrames :
    decodeFrame ex k1 = .ok 0x06 0x0123456789ABCDEF ∧ encodeFrame ex 0x06 1 = encodeFrame ex 0x06 1 :=
  ⟨by decide +kernel, rfl⟩
theorem witness_CorruptedFrameVerdicts :
    ((0, 0) : Fin frameLen × Fin 8) ≠ (11, 7) ∧ ((10, 6) : Fin frameLen × Fin 8) ≠ (10, 7) := by decide

/-! Encodings. -/

theorem witness_DecodeOfEncodeIsTheInstruction :
    Instr.WellFormed ex .crcInit ∧ Instr.WellFormed ex (.crcUpd 0xFF) ∧ Instr.WellFormed ex .crcGet ∧
    Instr.WellFormed ex (.frmSend 0xFF 0xFFFFFFFFFFFFFFFF) ∧ Instr.WellFormed ex .frmRecv ∧
    Instr.WellFormed ex .frmRsync ∧ Instr.WellFormed ex .frmFlush ∧
    Instr.WellFormed ex (.frame 0xA5 0x06 0x0123456789ABCDEF 0xFB 0x03) ∧ Instr.WellFormed ex (.rsp 0x7 0x0 0xFF 1) := by
  decide +kernel
theorem witness_DecodeOfEncodeIsTheInstruction_bytes :
    (encode (.rsp 0x7 0x0 0xFF 1)).nbits ≠ 96 ∧ ∀ st a d, Instr.rsp 0x7 0x0 0xFF 1 ≠ .rsp 0x1 st a d :=
  ⟨by decide, fun _ _ _ h => (by cases h)⟩
theorem witness_CommandCodesSelectOperations :
    (cmdOp 0x0000000000000000000).toNat = 0 ∧ 8 ≤ (cmdOp 0x8000000000000000000).toNat ∧
    8 ≤ (cmdOp 0xF060123456789ABCDEF).toNat ∧ (0x1 : BitVec 4) ≠ 0x2 ∧ (0x1 : BitVec 4) ≠ 0x4 := by decide
theorem witness_ReservedCodeIsRefused :
    (idleWith [0x0]).program = 0x0 :: [] ∧ (cmdOp 0x0).toNat = 0 ∧
    (idleWith [0x8000000000000000000]).program = 0x8000000000000000000 :: [] ∧
    8 ≤ (cmdOp 0x8000000000000000000).toNat := by decide

/-! The link family. -/

theorem witness_OperationsAreAcceptedWhenIdle :
    (∀ sof t p chk eof, Instr.frmRecv ≠ .frame sof t p chk eof) ∧ (∀ op st a d, Instr.frmRecv ≠ .rsp op st a d) ∧
    idle.busy = false ∧ (sending 0).busy = true ∧ (receiving 0x5 12 k1 []).busy = true :=
  ⟨fun _ _ _ _ _ h => (by cases h), fun _ _ _ _ h => (by cases h), by decide, by decide, by decide⟩
theorem witness_LinkOperationsIssue : received.busy = false := by decide
theorem witness_FlushEmptiesTheInput : idle.busy = false ∧ Runs (exec .frmFlush idle) :=
  ⟨by decide, runs_of_got (by decide)⟩
theorem witness_SendPutsBytesThenDrains :
    ((sending 0).txi.toNat < 12 ∧ (sending 0).phase = .tx) ∧ ((sending 11).txi.toNat < 12 ∧ (sending 11).phase = .tx) ∧
    (drained.phase = .tx ∧ drained.txi.toNat = 12 ∧ drained.txq = []) ∧
    ((sending 12).phase = .tx ∧ (sending 12).txi.toNat = 12 ∧ (sending 12).txq ≠ []) := by decide
theorem witness_SendFailureKeepsAPrefix :
    (sending 5).phase = .tx ∧ [] <+: (sending 5).txq ∧ [0xA5, 0x06] <+: (sending 5).txq ∧
    (sending 5).txq <+: (sending 5).txq := by decide
theorem witness_TakeMovesTheOldestByte :
    ((receiving 0x5 0 zeros [0xA5]).phase = .rx ∧ (receiving 0x5 0 zeros [0xA5]).rxc.toNat < 12 ∧
      (receiving 0x5 0 zeros [0xA5]).rxq = 0xA5 :: []) ∧
    ((receiving 0x6 11 zeros [1, 2]).rxc.toNat < 12 ∧ (receiving 0x6 11 zeros [1, 2]).rxq = 1 :: [2]) ∧
    ((receiving 0x5 11 k1 []).rxc.toNat < 12 ∧ (receiving 0x5 11 k1 []).rxq = []) := by decide
theorem witness_TimeoutEndsAStarvedAttempt :
    ((receiving 0x5 11 k1 []).phase = .rx ∧ (receiving 0x5 11 k1 []).rxc.toNat < 12 ∧ (receiving 0x5 11 k1 []).rxq = []) ∧
    ¬((receiving 0x5 12 k1 []).phase = .rx ∧ (receiving 0x5 12 k1 []).rxc.toNat < 12 ∧
      (receiving 0x5 12 k1 []).rxq = []) ∧
    ¬((receiving 0x5 0 k1 [1]).phase = .rx ∧ (receiving 0x5 0 k1 [1]).rxc.toNat < 12 ∧
      (receiving 0x5 0 k1 [1]).rxq = []) ∧
    ¬(idle.phase = .rx ∧ idle.rxc.toNat < 12 ∧ idle.rxq = []) := by decide
theorem witness_ReceiveFailureEndsTheAttempt :
    ((receiving 0x5 11 k1 [1]).phase = .rx ∧ (receiving 0x5 11 k1 [1]).rxc.toNat < 12) ∧
    ((receiving 0x5 12 k1 [1]).phase = .rx ∧ 12 ≤ (receiving 0x5 12 k1 [1]).rxc.toNat) := by decide
theorem witness_CheckReportsAnAcceptedFrame :
    ((receiving 0x5 12 k1 []).phase = .rx ∧ (receiving 0x5 12 k1 []).rxc.toNat = 12 ∧
      (receiving 0x5 12 k1 []).op = 0x5) ∧
    ((resyncing 2 k1 []).phase = .rx ∧ (resyncing 2 k1 []).rxc.toNat = 12 ∧ (resyncing 2 k1 []).op = 0x6) ∧
    decodeFrame ex k1 = .ok 0x06 0x0123456789ABCDEF := by decide +kernel

theorem fails_zeros : (decodeFrame ex zeros).FailsWith .badFraming := .inl ⟨by decide +kernel, rfl⟩
theorem fails_badSum : (decodeFrame ex badSum).FailsWith .badChecksum := .inr ⟨by decide +kernel, rfl⟩

theorem witness_CheckHandlesABadWindow :
    (receiving 0x5 12 zeros []).phase = .rx ∧ (receiving 0x5 12 zeros []).rxc.toNat = 12 ∧
    (decodeFrame (receiving 0x5 12 zeros []).params (receiving 0x5 12 zeros []).rxbuf).FailsWith .badFraming ∧
    (receiving 0x5 12 zeros []).op = 0x5 :=
  ⟨by decide, by decide, fails_zeros, by decide⟩
theorem witness_CheckHandlesABadWindow_retry :
    (resyncing 1 badSum []).phase = .rx ∧ (resyncing 1 badSum []).rxc.toNat = 12 ∧
    (decodeFrame (resyncing 1 badSum []).params (resyncing 1 badSum []).rxbuf).FailsWith .badChecksum ∧
    (resyncing 1 badSum []).op = 0x6 ∧
    ((resyncing 1 badSum []).att + 1).toNat ≠ (resyncing 1 badSum []).params.maxAttempts.toNat :=
  ⟨by decide, by decide, fails_badSum, by decide, by decide⟩
theorem witness_CheckHandlesABadWindow_bound :
    (resyncing 2 zeros []).phase = .rx ∧ (resyncing 2 zeros []).rxc.toNat = 12 ∧
    (decodeFrame (resyncing 2 zeros []).params (resyncing 2 zeros []).rxbuf).FailsWith .badFraming ∧
    (resyncing 2 zeros []).op = 0x6 ∧
    ((resyncing 2 zeros []).att + 1).toNat = (resyncing 2 zeros []).params.maxAttempts.toNat :=
  ⟨by decide, by decide, fails_zeros, by decide, by decide⟩
theorem witness_CheckHandlesABadWindow_four :
    (((resyncing 3 zeros []).att + 1).toNat = MaxAttempts.four.toNat) ∧
    (((resyncing 2 zeros []).att + 1).toNat ≠ MaxAttempts.four.toNat) := by decide
theorem witness_TimeoutAndDecodeNeverCompete :
    ((receiving 0x5 12 k1 []).phase = .rx ∧ (receiving 0x5 12 k1 []).rxc.toNat = 12) ∧
    ((receiving 0x5 11 k1 [3]).phase = .rx ∧ (receiving 0x5 11 k1 [3]).rxc.toNat < 12) ∧
    Runs (step ((receiving 0x5 11 k1 [3]).scheduled .framer)) :=
  ⟨by decide, by decide, runs_of_got (by decide)⟩
theorem witness_LinkMovesBytes : (sending 1).txq = 0xA5 :: [] ∧ idle.txq = [] := by decide

/-! The ports and the step. -/

/-- An idle block with the answer of V1 waiting. -/
def answered : State := { idle with rspq := [⟨0x3, 0, 0x4B, 0⟩] }

theorem witness_ResponseIsTakenByHost :
    answered.rspq = ⟨0x3, 0, 0x4B, 0⟩ :: [] ∧ idle.rspq.head? ≠ some ⟨0x3, 0, 0x4B, 0⟩ ∧
    answered.rspq.head? ≠ some ⟨0x3, 0, 0x4C, 0⟩ := by decide
theorem witness_HostReadsRegisters :
    idle.busy = false ∧ received.busy = false ∧ received.rvalid = true ∧ (sending 0).busy = true ∧
    HostReg.status ≠ .busy := by decide
theorem witness_StepRunsTheDecodedInstruction :
    (idleWith [0x2310000000000000000]).program = 0x2310000000000000000 :: [] ∧
    decodeCmd 0x2310000000000000000 = .ok (.crcUpd 0x31) ∧ (idleWith [0x2310000000000000000]).sched = [] ∧
    (idleWith [0x2310000000000000000]).busy = false ∧ answered.rspq = ⟨0x3, 0, 0x4B, 0⟩ :: [] := by decide
theorem witness_FetchedWordRunsNext :
    decodeTableWord 76 0x5000000000000000000 = some .frmRecv ∧ decodeTableWord 80 0x5000000000000000000 = some .frmRecv ∧
    decodeTableWord 79 0x184B0000000000000000 = some (.rsp 0x3 0 0x4B 0) ∧
    decodeTableWord 80 0x184B0000000000000000 = some (.rsp 0x3 0 0x4B 0) ∧
    decodeTableWord 96 0 = some (.frame 0 0 0 0 0) := by decide
theorem witness_IdleBlockSurvivesIdling : idle.busy = false ∧ idle.program = [] ∧ idle.sched = [] := by decide

/-! A step of each kind, for the statements about every step. -/

theorem runs_host : Runs (step (idleWith [0x4060123456789ABCDEF])) := runs_of_got (by decide)
theorem runs_put : Runs (step ((sending 11).scheduled .framer)) := runs_of_got (by decide)
theorem runs_drain : Runs (step (drained.scheduled .framer)) := runs_of_got (by decide)
theorem runs_wireOut : Runs (step (sending 12)) := runs_of_got (by decide)
theorem runs_fail : Runs (step ((sending 3).scheduled (.link (.fail 1)))) := runs_of_got (by decide)
theorem runs_take : Runs (step ((receiving 0x5 11 k1 [3]).scheduled .framer)) := runs_of_got (by decide)
theorem runs_check : Runs (step ((receiving 0x5 12 k1 []).scheduled .framer)) := runs_of_got (by decide +kernel)
theorem runs_retry : Runs (step ((resyncing 1 zeros []).scheduled .framer)) := runs_of_got (by decide +kernel)
theorem runs_timeout : Runs (step (receiving 0x5 0 k1 [])) := runs_of_got (by decide)

/-- A block that is idle by default issues the one command it is given. -/
theorem idleWith_issues {w : CmdWord} {i : Instr} (h : decodeCmd w = .ok i) : (idleWith [w]).Issues i :=
  ⟨rfl, w, [], rfl, h, .inl rfl⟩

theorem witness_OneResponsePerOperation :
    (Runs (step (drained.scheduled .framer)) ∧ drained.busy = true) ∧
    (Runs (step (sending 11)) ∧ (sending 11).busy = true) ∧
    ((idleWith [0x1000000000000000000]).IssuesAtOnce 0x1 ∧ (idleWith [0x231FFFFFFFFFFFFFFFF]).IssuesAtOnce 0x2 ∧
      (idleWith [0x3000000000000000000]).IssuesAtOnce 0x3 ∧ (idleWith [0x7000000000000000000]).IssuesAtOnce 0x7 ∧
      Runs (step (idleWith [0x7000000000000000000]))) :=
  ⟨⟨runs_drain, by decide⟩, ⟨runs_of_got (by decide), by decide⟩,
    .inl ⟨rfl, idleWith_issues test_decode_crcInit⟩, .inr (.inl ⟨rfl, 0x31, idleWith_issues test_decode_crcUpd⟩),
    .inr (.inr (.inl ⟨rfl, idleWith_issues test_decode_crcGet⟩)),
    .inr (.inr (.inr ⟨rfl, idleWith_issues test_decode_frmFlush⟩)), runs_of_got (by decide)⟩
theorem witness_OneResponsePerOperation_silent :
    answered.busy = false ∧ (∀ op, ¬ (answered.scheduled .response).IssuesAtOnce op) ∧
    Runs (step (answered.scheduled .response)) := by
  refine ⟨by decide, ?_, runs_of_got (by decide)⟩
  rintro op (⟨-, h⟩ | ⟨-, x, h⟩ | ⟨-, h⟩ | ⟨-, h⟩) <;> exact not_issues rfl _ h
theorem witness_OnlyCrcOperationsWriteCrc : Runs (step (idleWith [0x2310000000000000000])) := runs_of_got (by decide)
theorem witness_FrameTrafficIgnoresCrc :
    ¬ (sending 11).Issues .crcInit ∧ ¬ (sending 11).Issues .crcGet ∧ (∀ x, ¬ (sending 11).Issues (.crcUpd x)) ∧
    Runs (step (sending 11)) :=
  ⟨not_issues rfl _, not_issues rfl _, fun _ => not_issues rfl _, runs_of_got (by decide)⟩
theorem witness_ResultsComeFromAcceptedWindows :
    ∃ t, step (receiving 0x5 12 k1 []) = .next t ∧
      (t.typeRx ≠ (receiving 0x5 12 k1 []).typeRx ∨ t.payloadRx ≠ (receiving 0x5 12 k1 []).payloadRx) :=
  let ⟨t, h, e⟩ := next_of_got (f := State.typeRx) (a := 0x06) (r := step (receiving 0x5 12 k1 [])) (by decide +kernel)
  ⟨t, h, .inl (by rw [e]; decide)⟩
theorem witness_BuffersAreWrittenByTheirOperations :
    Runs (step (idleWith [0x4060123456789ABCDEF])) ∧ Runs (step ((receiving 0x5 11 k1 [3]).scheduled .framer)) :=
  ⟨runs_host, runs_take⟩
theorem witness_ControlRegistersAreWrittenAsListed :
    ((idleWith [0x4060123456789ABCDEF]).IssuesSend ∧ Runs (step (idleWith [0x4060123456789ABCDEF]))) ∧
    ((idleWith [0x5000000000000000000]).Issues .frmRecv ∧ Runs (step (idleWith [0x5000000000000000000]))) ∧
    ((idleWith [0x6000000000000000000]).Issues .frmRsync ∧ Runs (step (idleWith [0x6000000000000000000]))) ∧
    ((idleWith [0x7000000000000000000]).Issues .frmFlush ∧ Runs (step (idleWith [0x7000000000000000000]))) :=
  ⟨⟨⟨_, _, idleWith_issues test_decode_frmSend⟩, runs_host⟩,
    ⟨idleWith_issues test_decode_frmRecv, runs_of_got (by decide)⟩,
    ⟨idleWith_issues test_decode_frmRsync, runs_of_got (by decide)⟩,
    ⟨idleWith_issues test_decode_frmFlush, runs_of_got (by decide)⟩⟩
/-- Completions: a failed send, and a receive that completes with `OK`. -/
theorem witness_ControlRegistersAreWrittenAsListed_completion :
    (∃ t, step ((sending 3).scheduled (.link (.fail 1))) = .next t ∧ (sending 3).busy = true ∧ t.busy = false) ∧
    (∃ t, step (receiving 0x5 12 k1 []) = .next t ∧ (receiving 0x5 12 k1 []).phase = .rx ∧
      (t.phase, t.status) = (.idle, .ok)) :=
  have fails := next_of_got (f := State.busy) (a := false)
    (r := step ((sending 3).scheduled (.link (.fail 1)))) (by decide)
  have accepts := next_of_got (f := fun t => (t.phase, t.status)) (a := (.idle, .ok))
    (r := step (receiving 0x5 12 k1 [])) (by decide +kernel)
  ⟨fails.elim fun t h => ⟨t, h.1, rfl, h.2⟩, accepts.elim fun t h => ⟨t, h.1, rfl, h.2⟩⟩
/-- A check that counts a failed attempt, and a step that writes none of the four. -/
theorem witness_ControlRegistersAreWrittenAsListed_attempt :
    ((resyncing 1 zeros []).CountsFailure ∧ Runs (step (resyncing 1 zeros []))) ∧
    (¬ (sending 11).IssuesSend ∧ (∀ i, ¬ (sending 11).Issues i) ∧ ¬ (sending 11).CountsFailure ∧
      Runs (step (sending 11))) :=
  ⟨⟨⟨by decide +kernel, rfl, rfl, rfl, by decide +kernel⟩, runs_of_got (by decide +kernel)⟩,
    fun ⟨_, _, h⟩ => not_issues rfl _ h, not_issues rfl, fun h => (by cases h.2.1), runs_of_got (by decide)⟩
theorem witness_StreamsAreFirstInFirstOut :
    Runs (step (sending 12)) ∧ Runs (step ((sending 3).scheduled (.link (.fail 1)))) := ⟨runs_wireOut, runs_fail⟩
theorem witness_ParametersNeverChange : Runs (step ((receiving 0x5 12 k1 []).scheduled .framer)) := runs_check
theorem witness_StaleContentsNeverMatter :
    AgreeUpToStale (receiving 0x5 11 k1 [3]) { receiving 0x5 11 k1 [3] with txbuf := k2, typeRx := 1, payloadRx := 2 } ∧
    Runs (step (receiving 0x5 11 k1 [3])) :=
  ⟨⟨rfl, fun h => (by cases h), fun _ => rfl, fun h => (by cases h)⟩, runs_of_got (by decide)⟩

/-! Legal states. -/

theorem idle_legal : idle.Inv :=
  ⟨by unfold State.InRange; decide, .inl ⟨rfl, rfl⟩, fun h => (by cases h), fun h => (by cases h), fun r h => (by cases h)⟩
theorem received_legal : received.Inv :=
  ⟨by unfold State.InRange; decide, .inr ⟨.inr (.inl rfl), by decide⟩, fun _ => by decide +kernel, fun h => (by cases h),
    fun r h => (by cases h)⟩
theorem sending_legal {i : Nat} (h : i = 0 ∨ i = 11 ∨ i = 12) : (sending i).Inv := by
  rcases h with rfl | rfl | rfl <;>
    exact ⟨by unfold State.InRange; decide, rfl, fun h => (by cases h),
      fun _ => ⟨⟨0x06, 0x0123456789ABCDEF, by decide +kernel⟩, [], by decide +kernel⟩, fun r h => (by cases h)⟩
theorem receiving_legal {c : Nat} (h : c = 0 ∨ c = 11 ∨ c = 12) (window : Buffer) (rxq : List Byte) :
    (receiving 0x5 c window rxq).Inv := by
  rcases h with rfl | rfl | rfl <;>
    exact ⟨⟨Nat.le_of_ble_eq_true rfl, Nat.le_of_ble_eq_true rfl, Nat.le_of_ble_eq_true rfl⟩, ⟨rfl, .inl rfl⟩, fun h => (by cases h), fun h => (by cases h),
      fun r h => (by cases h)⟩
theorem resyncing_legal {n : Nat} (h : n = 0 ∨ n = 2) (window : Buffer) (rxq : List Byte) :
    (resyncing n window rxq).Inv := by
  rcases h with rfl | rfl <;>
    exact ⟨⟨Nat.le_of_ble_eq_true rfl, Nat.le_of_ble_eq_true rfl, Nat.le_of_ble_eq_true rfl⟩, ⟨rfl, .inr ⟨rfl, Nat.le_of_ble_eq_true rfl⟩⟩, fun h => (by cases h), fun h => (by cases h),
      fun r h => (by cases h)⟩

theorem witness_EveryStepKeepsTheStateLegal :
    ((sending 11).Inv ∧ Runs (step (sending 11))) ∧
    ((receiving 0x5 12 k1 []).Inv ∧ Runs (step (receiving 0x5 12 k1 []))) ∧
    ((resyncing 2 zeros []).Inv ∧ Runs (step (resyncing 2 zeros []))) ∧ idle.Inv ∧ received.Inv :=
  ⟨⟨sending_legal (.inr (.inl rfl)), runs_of_got (by decide)⟩,
    ⟨receiving_legal (.inr (.inr rfl)) _ _, runs_of_got (by decide +kernel)⟩,
    ⟨resyncing_legal (.inr rfl) _ _, runs_of_got (by decide +kernel)⟩, idle_legal, received_legal⟩

theorem witness_LaunchStatesAreLegal :
    ({ idle with rxq := [1, 2] } : State).Idle ∧ ({ idle with rxq := [1, 2] } : State).RegsReset ∧
    ({ idle with rxq := [1, 2] } : State).TxEmpty ∧ ({ idle with rxq := [1, 2] } : State).responses = [] :=
  ⟨rfl, ⟨rfl, rfl, rfl, rfl, rfl, rfl, rfl, rfl⟩, rfl, rfl⟩

theorem send_under_way {i : Nat} (h : i = 0 ∨ i = 12) : SendUnderWay [] 0x06 0x0123456789ABCDEF (sending i) := by
  rcases h with rfl | rfl <;> exact ⟨rfl, rfl, by decide +kernel, by decide, by decide +kernel⟩
theorem witness_SendPutsItsFrameOnTheWire :
    Runs (exec (.frmSend 0x06 0x0123456789ABCDEF) idle) ∧
    (SendUnderWay [] 0x06 0x0123456789ABCDEF (sending 0) ∧ Runs (step (sending 0))) ∧
    (SendUnderWay [] 0x06 0x0123456789ABCDEF (sending 12) ∧ Runs (step (sending 12))) :=
  ⟨runs_of_got (by decide), ⟨send_under_way (.inl rfl), runs_of_got (by decide)⟩,
    ⟨send_under_way (.inr rfl), runs_of_got (by decide)⟩⟩
theorem witness_RecvTakesTheNextTwelveBytes :
    Runs (exec .frmRecv idle) ∧
    (RecvUnderWay (0, 0) k1.toList (receiving 0x5 0 zeros k1.toList) ∧ Runs (step (receiving 0x5 0 zeros k1.toList))) ∧
    (RecvUnderWay (0, 0) (k1.toList ++ [0x99]) (receiving 0x5 12 k1 [0x99]) ∧
      Runs (step (receiving 0x5 12 k1 [0x99]))) ∧
    (RecvUnderWay (0, 0) zeros.toList (receiving 0x5 12 zeros []) ∧ Runs (step (receiving 0x5 12 zeros []))) ∧
    (RecvUnderWay (0, 0) (k1.toList.take 11) (receiving 0x5 11 k1 []) ∧ Runs (step (receiving 0x5 11 k1 []))) :=
  ⟨runs_of_got (by decide), ⟨⟨rfl, rfl, rfl, ⟨rfl, rfl⟩, by decide, by decide⟩, runs_of_got (by decide)⟩,
    ⟨⟨rfl, rfl, rfl, ⟨rfl, rfl⟩, by decide, by decide⟩, runs_of_got (by decide +kernel)⟩,
    ⟨⟨rfl, rfl, rfl, ⟨rfl, rfl⟩, by decide, by decide⟩, runs_of_got (by decide +kernel)⟩,
    ⟨⟨rfl, rfl, rfl, ⟨rfl, rfl⟩, by decide, by decide⟩, runs_of_got (by decide)⟩⟩
theorem witness_RsyncIsTheLoopOfReceives :
    ((resyncing 0 k1 []).Inv ∧ (resyncing 0 k1 []).phase = .rx ∧ (resyncing 0 k1 []).rxc.toNat = 12 ∧
      (resyncing 0 k1 []).op = 0x6 ∧ decodeFrame ex k1 = .ok 0x06 0x0123456789ABCDEF) ∧
    ((resyncing 0 zeros []).Inv ∧ (decodeFrame ex zeros).FailsWith .badFraming ∧
      ((resyncing 0 zeros []).att + 1).toNat ≠ ex.maxAttempts.toNat) ∧
    ((resyncing 2 badSum []).Inv ∧ (decodeFrame ex badSum).FailsWith .badChecksum ∧
      ((resyncing 2 badSum []).att + 1).toNat = ex.maxAttempts.toNat) :=
  ⟨⟨resyncing_legal (.inl rfl) _ _, rfl, rfl, rfl, by decide +kernel⟩,
    ⟨resyncing_legal (.inl rfl) _ _, fails_zeros, by decide⟩, ⟨resyncing_legal (.inr rfl) _ _, fails_badSum, by decide⟩⟩
theorem witness_FramerStepsAreBounded :
    ((sending 0).Inv ∧ (sending 0).framerStep.isSome = true) ∧
    ((receiving 0x5 11 k1 [3]).Inv ∧ (receiving 0x5 11 k1 [3]).framerStep.isSome = true) ∧
    ((resyncing 2 zeros []).Inv ∧ (resyncing 2 zeros []).framerStep.isSome = true) :=
  ⟨⟨sending_legal (.inl rfl), by decide⟩, ⟨receiving_legal (.inr (.inl rfl)) _ _, by decide⟩,
    ⟨resyncing_legal (.inr rfl) _ _, by decide +kernel⟩⟩
theorem witness_EveryOperationCompletes :
    ((sending 0).Inv ∧ (sending 0).sched = [] ∧ (sending 0).busy = true) ∧
    ((receiving 0x5 0 zeros []).Inv ∧ (receiving 0x5 0 zeros []).sched = [] ∧ (receiving 0x5 0 zeros []).busy = true) ∧
    ((resyncing 0 zeros [1]).Inv ∧ (resyncing 0 zeros [1]).sched = [] ∧ (resyncing 0 zeros [1]).busy = true) :=
  ⟨⟨sending_legal (.inl rfl), by decide⟩, ⟨receiving_legal (.inl rfl) _ _, by decide⟩,
    ⟨resyncing_legal (.inl rfl) _ _, by decide⟩⟩
theorem idleWith_legal (program : List CmdWord) : (idleWith program).Inv :=
  ⟨⟨Nat.le_of_ble_eq_true rfl, Nat.le_of_ble_eq_true rfl, Nat.le_of_ble_eq_true rfl⟩, .inl ⟨rfl, rfl⟩,
    fun h => (by cases h), fun h => (by cases h), fun r h => (by cases h)⟩
theorem witness_ProgramsRunToTheirEnd :
    (idleWith [0x2310000000000000000, 0x5000000000000000000]).Inv ∧
    (idleWith [0x2310000000000000000, 0x5000000000000000000]).sched = [] ∧
    (∀ w ∈ (idleWith [0x2310000000000000000, 0x5000000000000000000]).program, ∃ i, decodeCmd w = .ok i) ∧
    (sending 0).Inv ∧ (sending 0).busy = true := by
  refine ⟨idleWith_legal _, rfl, fun w h => ?_, sending_legal (.inl rfl), rfl⟩
  rcases List.mem_cons.1 h with rfl | h
  · exact ⟨_, test_decode_crcUpd_zero⟩
  · exact ⟨_, List.mem_singleton.1 h ▸ test_decode_frmRecv⟩
theorem drained_legal : drained.Inv :=
  ⟨by unfold State.InRange; decide, rfl, fun h => (by cases h),
    fun _ => ⟨⟨0x06, 0x0123456789ABCDEF, by decide +kernel⟩, [], by decide +kernel⟩, fun r h => (by cases h)⟩
/-- The rows of the table that start in `IDLE`. -/
theorem witness_SequencerFollowsTheTable_host :
    ((idleWith [0x4060123456789ABCDEF]).Inv ∧ (idleWith [0x4060123456789ABCDEF]).phase = .idle ∧
      (idleWith [0x4060123456789ABCDEF]).program = 0x4060123456789ABCDEF :: [] ∧
      decodeCmd 0x4060123456789ABCDEF = .ok (.frmSend 0x06 0x0123456789ABCDEF)) ∧
    ((idleWith [0x6000000000000000000]).Inv ∧ decodeCmd 0x6000000000000000000 = .ok .frmRsync) ∧
    ((idleWith [0x1000000000000000000]).Inv ∧ decodeCmd 0x1000000000000000000 = .ok .crcInit) :=
  ⟨⟨idleWith_legal _, rfl, rfl, test_decode_frmSend⟩, ⟨idleWith_legal _, test_decode_frmRsync⟩,
    ⟨idleWith_legal _, test_decode_crcInit⟩⟩
/-- The rows that start in `TX`, and those in `RX` with the window not full. -/
theorem witness_SequencerFollowsTheTable_move :
    ((sending 11).Inv ∧ (sending 11).phase = .tx ∧ (sending 11).txi.toNat < 12) ∧
    (drained.Inv ∧ drained.phase = .tx ∧ drained.txi.toNat = 12 ∧ drained.txq = []) ∧
    ((receiving 0x5 11 k1 [3]).Inv ∧ (receiving 0x5 11 k1 [3]).phase = .rx ∧ (receiving 0x5 11 k1 [3]).rxc.toNat < 12 ∧
      (receiving 0x5 11 k1 [3]).rxq ≠ []) ∧
    ((receiving 0x5 0 k1 []).Inv ∧ (receiving 0x5 0 k1 []).rxc.toNat < 12 ∧ (receiving 0x5 0 k1 []).rxq = []) ∧
    Runs (step ((sending 11).scheduled .framer)) :=
  ⟨⟨sending_legal (.inr (.inl rfl)), by decide⟩, ⟨drained_legal, by decide⟩,
    ⟨receiving_legal (.inr (.inl rfl)) _ _, by decide⟩, ⟨receiving_legal (.inl rfl) _ _, by decide⟩, runs_put⟩
/-- The four check rows. -/
theorem witness_SequencerFollowsTheTable_check :
    ((receiving 0x5 12 zeros []).Inv ∧ (receiving 0x5 12 zeros []).rxc.toNat = 12 ∧
      (receiving 0x5 12 zeros []).op = 0x5) ∧
    ((resyncing 2 k1 []).Inv ∧ (resyncing 2 k1 []).rxc.toNat = 12 ∧ (resyncing 2 k1 []).op = 0x6 ∧
      (decodeFrame ex k1).outcome = .ok) ∧
    ((resyncing 2 zeros []).Inv ∧ (decodeFrame ex zeros).outcome ≠ .ok ∧
      (resyncing 2 zeros []).att.toNat + 1 = ex.maxAttempts.toNat) ∧
    ((resyncing 0 zeros []).Inv ∧ (decodeFrame ex zeros).outcome ≠ .ok ∧
      (resyncing 0 zeros []).att.toNat + 1 < ex.maxAttempts.toNat) :=
  ⟨⟨receiving_legal (.inr (.inr rfl)) _ _, by decide⟩, ⟨resyncing_legal (.inr rfl) _ _, by decide +kernel⟩,
    ⟨resyncing_legal (.inr rfl) _ _, by decide +kernel⟩, ⟨resyncing_legal (.inl rfl) _ _, by decide +kernel⟩⟩
theorem witness_SendCompletesOnAWorkingLink : idle.busy = false ∧ idle.sched = [] := by decide
theorem witness_RecvReturnsTheOldestFrame :
    ({ idle with rxq := k1.toList ++ [0x99] } : State).busy = false ∧
    ({ idle with rxq := k1.toList ++ [0x99] } : State).sched = [] ∧
    ({ idle with rxq := k1.toList ++ [0x99] } : State).rxq =
      (encodeFrame ex 0x06 0x0123456789ABCDEF).toList ++ [0x99] := by decide +kernel
theorem witness_RsyncRecoversAfterABadWindow :
    ({ idle with rxq := zeros.toList ++ [0x99] } : State).busy = false ∧
    ({ idle with rxq := zeros.toList ++ [0x99] } : State).sched = [] ∧
    ({ idle with rxq := zeros.toList ++ [0x99] } : State).rxq = zeros.toList ++ [0x99] ∧
    (decodeFrame ex zeros).FailsWith .badFraming :=
  ⟨by decide, by decide, by decide, fails_zeros⟩

end Sys2Proof.Tests
end

section
/-!
PROOFS. The registers right after reset (10_state.md R24).
-/

namespace Sys2Proof.Machine

/-- R24 gives the block's own registers the values that the launch premise of R25 asks for. -/
theorem State.reset_regsReset : State.reset.RegsReset := ⟨rfl, rfl, rfl, rfl, rfl, rfl, rfl, rfl⟩

@[simp] theorem State.reset_wire : State.reset.wire = [] := rfl

/-- The numeric code R24 gives `STATUS`, that of `OK` (R20). -/
@[simp] theorem Status.code_ok : Status.ok.code = 0 := rfl

/-- Settles O37: the reset state meets the launch premise `RegsReset`; `BUSY` follows from `PHASE`, the code of `STATUS` from
its outcome. -/
theorem resetRegisters : Obligations.ResetRegisters := by
  obtain ⟨phase, txi, rxc, att, op, status, rvalid, crc⟩ := State.reset_regsReset
  have busy : State.reset.busy = false := (State.busy_eq_false _).2 phase
  have code : State.reset.status.code = 0 := by rw [status, Status.code_ok]
  exact ⟨phase, busy, txi, rxc, att, op, status, code, rvalid, crc, State.reset_wire⟩

end Sys2Proof.Machine
end

section
/-!
PROOFS. Command words with a reserved code (30_encoding.md R53, R55).
-/

namespace Sys2Proof.Machine

/-- R55: outside the codes 0x1 to 0x7 of R53 the decoder rejects the word, naming its code. -/
theorem decodeCmd_of_reserved {w : CmdWord} (hop : (cmdOp w).toNat = 0 ∨ 8 ≤ (cmdOp w).toNat) :
    decodeCmd w = .error (.reservedOp (cmdOp w)) := by
  unfold decodeCmd
  split
  case h_8 => rfl
  all_goals omega

/-- A rejected word is refused before any operation is run, so whether the block is busy plays no part. -/
theorem issueNext_of_reject {s : State} {w : CmdWord} {more : List CmdWord} {why : Reject}
    (next : s.program = w :: more) (dec : decodeCmd w = .error why) : issueNext s = .refused (.reserved why) := by
  simp only [issueNext, next, dec]

/-- Settles O17: the scheduled `host` turn presents the word, the decoder rejects it by its code, and the turn refuses it for
that reason. -/
theorem reservedCodeIsRefused : Obligations.ReservedCodeIsRefused := by
  intro s w more next hop
  calc step (s.scheduled .host)
    _ = issueNext s := step_scheduled .host s
    _ = .refused (.reserved (.reservedOp (cmdOp w))) := issueNext_of_reject next (decodeCmd_of_reserved hop)

end Sys2Proof.Machine
end

section
/-!
PROOFS. The byte step of the checksum loop (40_crc8.md R67, R68): it is the table form, and the table is injective.
-/

namespace Sys2Proof.Machine

/-- An entry of the table is eight turns of the loop on its index. -/
theorem crcT_eq_crcShifts (i : Byte) : crcT i = crcShifts 8 i :=
  congrArg (crcShifts 8) BitVec.zero_xor

/-- R68: register and byte enter a byte step only through their exclusive or. -/
theorem crcStep_eq_crcT (c b : Byte) : crcStep c b = crcT (c ^^^ b) := by
  rw [crcT_eq_crcShifts, crcStep]

/-- The bit shifted out is bit 0 of the result, since the polynomial is odd. -/
theorem getLsbD_zero_crcShift (c : Byte) : (crcShift c).getLsbD 0 = c.getLsbD 7 := by
  unfold crcShift
  cases h : c.getLsbD 7 <;> simp [crcPoly]

/-- A turn that leaves zero fed nothing back, so all it did was to shift out a zero bit. -/
theorem eq_zero_of_crcShift_eq_zero {c : Byte} (h : crcShift c = 0) : c = 0 := by
  have top : c.getLsbD 7 = false := by rw [← getLsbD_zero_crcShift, h]; rfl
  have shifted : c <<< 1 = 0 := by rwa [crcShift, top, if_neg Bool.false_ne_true] at h
  refine BitVec.eq_of_getElem_eq fun i hi => ?_
  rcases Nat.lt_succ_iff_lt_or_eq.1 hi with below | rfl
  · simpa [Nat.succ_lt_succ below] using congrArg (fun x : Byte => x.getLsbD (i + 1)) shifted
  · simpa using top

theorem crcShift_injective : Function.Injective crcShift := fun c e h =>
  BitVec.xor_eq_zero_iff.1 (eq_zero_of_crcShift_eq_zero (by rw [crcShift_xor, h]; exact BitVec.xor_self))

theorem crcShifts_injective (n : Nat) : Function.Injective (crcShifts n) := by
  induction n with
  | zero => exact Function.injective_id
  | succ n ih => exact ih.comp crcShift_injective

/-- No value stands twice in the table. -/
theorem crcT_injective : Function.Injective crcT := by
  rw [funext crcT_eq_crcShifts]
  exact crcShifts_injective 8

/-- Settles O6: the table form is the definition of the byte step, and each row is computed. -/
theorem byteStepIsTheTable : Obligations.ByteStepIsTheTable := by
  refine ⟨crcStep_eq_crcT, ?_, ?_, ?_, ?_, ?_, ?_, ?_, ?_, ?_, ?_, ?_, ?_, ?_, ?_, ?_, ?_⟩
  all_goals decide

end Sys2Proof.Machine
end

section
/-!
PROOFS. Linearity and the residue of the checksum (40_crc8.md R73).
-/

namespace Sys2Proof.Machine

/-- A term of an exclusive or changes sides. -/
theorem xor_eq_iff (c x d : Byte) : c ^^^ x = d ↔ x = c ^^^ d := by
  rw [← BitVec.xor_right_inj c, ← BitVec.xor_assoc, BitVec.xor_self, BitVec.zero_xor]

/-- R73 (a) for any two starting values: over sequences of one length the loop distributes over exclusive or. -/
theorem crcFrom_xor (c e : Byte) {m n : List Byte} (len : m.length = n.length) :
    crcFrom (c ^^^ e) (List.zipWith (· ^^^ ·) m n) = crcFrom c m ^^^ crcFrom e n := by
  induction m generalizing c e n with
  | nil => rw [List.length_eq_zero_iff.1 len.symm]; rfl
  | cons x m ih =>
    obtain ⟨y, n, rfl⟩ := List.exists_cons_of_length_eq_add_one len.symm
    rw [List.zipWith_cons_cons, crcFrom_cons, crcStep_xor, ih _ _ (Nat.succ.inj len), crcFrom_cons, crcFrom_cons]

theorem crc8_xor {m e : List Byte} (len : m.length = e.length) :
    crc8 (List.zipWith (· ^^^ ·) m e) = crc8 m ^^^ crc0 e := by
  have raw : crcRaw (List.zipWith (· ^^^ ·) m e) = crcRaw m ^^^ crc0 e :=
    crcFrom_xor crcInitValue 0 len
  rw [crc8, crc8, raw, BitVec.xor_assoc, BitVec.xor_comm (crc0 e), BitVec.xor_assoc]

/-- The last byte enters by its exclusive or with the register before it. -/
theorem crcRaw_append_singleton (m : List Byte) (x : Byte) : crcRaw (m ++ [x]) = crcT (crcRaw m ^^^ x) := by
  rw [crcRaw, crcFrom_append, crcFrom_cons, crcFrom_nil, crcStep_eq_crcT, crcRaw]

/-- The residue is the table's entry at the final XOR value, which is what a register and its checksum differ by. -/
theorem crcT_xorOut : crcT crcXorOut = crcResidue := by decide

theorem crcRaw_append_singleton_eq_residue (m : List Byte) (x : Byte) :
    crcRaw (m ++ [x]) = crcResidue ↔ x = crc8 m :=
  calc crcRaw (m ++ [x]) = crcResidue
    _ ↔ crcT (crcRaw m ^^^ x) = crcT crcXorOut := by rw [crcRaw_append_singleton, crcT_xorOut]
    _ ↔ crcRaw m ^^^ x = crcXorOut := crcT_injective.eq_iff
    _ ↔ x = crc8 m := xor_eq_iff _ _ _

/-- Settles O7: linearity of the loop, and the byte that leaves the residue is the checksum and no other. -/
theorem checksumLinearityAndResidue : Obligations.ChecksumLinearityAndResidue :=
  ⟨fun _ _ => crc8_xor, fun m => (crcRaw_append_singleton_eq_residue m _).2 rfl, crcRaw_append_singleton_eq_residue⟩

end Sys2Proof.Machine
end

section
/-!
PROOFS. The operations `CRC.INIT`, `CRC.UPD` and `CRC.GET` (40_crc8.md R69 to R71).
-/

namespace Sys2Proof.Machine

/-- What accepting an operation can do, said of the flag `BUSY` (R21, R95 (a)). -/
theorem whenIdle_eq_next_iff_not_busy {s t u : State} : whenIdle s t = .next u ↔ s.busy = false ∧ u = t := by
  rw [whenIdle_eq_next, State.busy_eq_false, eq_comm (a := t)]

theorem exec_crcInit_eq_next {s t : State} : exec .crcInit s = .next t ↔
    s.busy = false ∧ t = { s with crc := crcInitValue }.respond opCrcInit Status.ok.code none none :=
  whenIdle_eq_next_iff_not_busy

theorem exec_crcUpd_eq_next {x : Byte} {s t : State} : exec (.crcUpd x) s = .next t ↔
    s.busy = false ∧ t = { s with crc := crcStep s.crc x }.respond opCrcUpd Status.ok.code none none :=
  whenIdle_eq_next_iff_not_busy

theorem exec_crcGet_eq_next {s t : State} : exec .crcGet s = .next t ↔
    s.busy = false ∧ t = s.respond opCrcGet Status.ok.code (some (s.crc ^^^ crcXorOut)) none :=
  whenIdle_eq_next_iff_not_busy

/-! Code 0x1 leaves both other fields of the command word unread, code 0x2 the payload, code 0x3 both (R53). -/

@[simp] theorem decodeCmd_crcInit (a : Byte) (d : Payload) : decodeCmd (cmdWord 0x1 a d) = .ok .crcInit := by
  simp [decodeCmd]

@[simp] theorem decodeCmd_crcUpd (x : Byte) (d : Payload) : decodeCmd (cmdWord 0x2 x d) = .ok (.crcUpd x) := by
  simp [decodeCmd]

@[simp] theorem decodeCmd_crcGet (a : Byte) (d : Payload) : decodeCmd (cmdWord 0x3 a d) = .ok .crcGet := by
  simp [decodeCmd]

/-- R70's corner case, by the table's 256 entries: only that of 0x00 is its own index. -/
theorem crcStep_zero_eq_self (c : Byte) : crcStep c 0 = c ↔ c = 0 := by
  revert c
  decide

/-- Settles O1: what `CRC.INIT` answers from an idle block is its inversion lemma read from right to left, and that it
answers only there is the same lemma read from left to right. -/
theorem crcInitSetsTheRegister : Obligations.CrcInitSetsTheRegister :=
  ⟨fun _ idle => ⟨_, _, exec_crcInit_eq_next.2 ⟨idle, rfl⟩⟩, fun _ _ run => (exec_crcInit_eq_next.1 run).1,
    decodeCmd_crcInit⟩

/-- Settles O2, as O1, with the corner case of a zero byte apart. -/
theorem crcUpdFeedsOneByte : Obligations.CrcUpdFeedsOneByte :=
  ⟨fun _ _ idle => ⟨_, _, exec_crcUpd_eq_next.2 ⟨idle, rfl⟩⟩, fun _ _ _ run => (exec_crcUpd_eq_next.1 run).1,
    decodeCmd_crcUpd, crcStep_zero_eq_self, rfl, by decide⟩

/-- Settles O3, as O1; from 0xFF the final exclusive or leaves 0x00 to report. -/
theorem crcGetReportsTheChecksum : Obligations.CrcGetReportsTheChecksum := by
  refine ⟨fun _ idle => ⟨_, exec_crcGet_eq_next.2 ⟨idle, rfl⟩⟩, fun _ _ run => (exec_crcGet_eq_next.1 run).1,
    decodeCmd_crcGet, ?_⟩
  intro s t full run
  obtain ⟨-, rfl⟩ := exec_crcGet_eq_next.1 run
  rw [State.respond_rspq, full]
  exact ⟨_, rfl⟩

end Sys2Proof.Machine
end

section
/-!
PROOFS. The frame codec (41_frame_codec.md R80 to R83): where `Encode` puts each byte, the three verdicts of `Decode`, and
that the two are inverse to each other.
-/

namespace Sys2Proof.Machine

/-! ## The bytes of a window -/

/-- Bytes 2 to 9 of a window, where the payload stands (R50). -/
def payloadBytes (f : Buffer) : Vector Byte payloadLen := #v[f[2], f[3], f[4], f[5], f[6], f[7], f[8], f[9]]

theorem toList_buffer (f : Buffer) :
    f.toList = [f[0], f[1], f[2], f[3], f[4], f[5], f[6], f[7], f[8], f[9], f[10], f[11]] :=
  congrArg Vector.toList (buffer_eq_bytes f)

theorem crcCovered_eq_take (f : Buffer) : crcCovered f = (f.toList.drop 1).take crcCover := by
  rw [toList_buffer]; rfl

theorem toList_payloadBytes (f : Buffer) : (payloadBytes f).toList = (f.toList.drop 2).take payloadLen := by
  simp [payloadBytes, toList_buffer]

/-- A window is the frame of its own five fields. -/
theorem frameBytes_fields (f : Buffer) :
    frameBytes (readByte f 0) (readByte f 1) (unbe64 (payloadBytes f)) (readByte f 10) (readByte f 11) = f := by
  simp only [frameBytes, be64_unbe64]
  exact (buffer_eq_bytes f).symm

/-- The checksum input of a window's own type and payload is what its checksum covers (R51 (c)). -/
theorem crcInput_fields (f : Buffer) : crcInput (readByte f 1) (unbe64 (payloadBytes f)) = crcCovered f := by
  rw [crcInput, be64_unbe64]; rfl

/-! ## The three verdicts (R81) -/

/-- Both markers of a window are right. -/
def HasMarkers (c : Params) (f : Buffer) : Prop := readByte f 0 = c.sof ∧ readByte f 11 = c.eof

section
variable {c : Params} {f : Buffer}

theorem decodeFrame_of_wrong_marker (wrong : ¬ HasMarkers c f) : decodeFrame c f = .badFraming :=
  if_pos (not_and_or.1 wrong)

variable (markers : HasMarkers c f)
include markers

theorem decodeFrame_of_markers : decodeFrame c f =
    if crc8 (crcCovered f) ≠ readByte f 10 then .badChecksum else .ok (readByte f 1) (unbe64 (payloadBytes f)) :=
  if_neg fun wrong => not_and_or.2 wrong markers

theorem decodeFrame_of_wrong_checksum (wrong : crc8 (crcCovered f) ≠ readByte f 10) :
    decodeFrame c f = .badChecksum := by
  rw [decodeFrame_of_markers markers, if_pos wrong]

theorem decodeFrame_of_right_checksum (right : crc8 (crcCovered f) = readByte f 10) :
    decodeFrame c f = .ok (readByte f 1) (unbe64 (payloadBytes f)) := by
  rw [decodeFrame_of_markers markers, if_neg (not_not.2 right)]

end

/-- Settles O10: the three tests of `Decode` in their order; an accepted payload has the window's own bytes because
`be64` undoes `unbe64`. -/
theorem decodeTestsMarkersFirst : Obligations.DecodeTestsMarkersFirst := by
  intro c f
  rw [← crcCovered_eq_take]
  refine ⟨fun wrong => decodeFrame_of_wrong_marker (not_and_or.2 wrong),
    fun sof eof => decodeFrame_of_wrong_checksum ⟨sof, eof⟩, fun sof eof right => ?_⟩
  refine ⟨_, decodeFrame_of_right_checksum ⟨sof, eof⟩ right, ?_⟩
  rw [be64_unbe64, toList_payloadBytes]

/-! ## The bytes of an encoded frame (R80) -/

section
variable (c : Params) (t : Byte) (p : Payload)

@[simp] theorem readByte_encodeFrame_sof : readByte (encodeFrame c t p) 0 = c.sof := rfl
@[simp] theorem readByte_encodeFrame_type : readByte (encodeFrame c t p) 1 = t := rfl
@[simp] theorem readByte_encodeFrame_chk : readByte (encodeFrame c t p) 10 = crc8 (crcInput t p) := rfl
@[simp] theorem readByte_encodeFrame_eof : readByte (encodeFrame c t p) 11 = c.eof := rfl
@[simp] theorem payloadBytes_encodeFrame : payloadBytes (encodeFrame c t p) = be64 p := rfl

theorem hasMarkers_encodeFrame : HasMarkers c (encodeFrame c t p) :=
  ⟨readByte_encodeFrame_sof c t p, readByte_encodeFrame_eof c t p⟩

theorem encodeFrame_checksum :
    crc8 (crcCovered (encodeFrame c t p)) = readByte (encodeFrame c t p) 10 := by
  rw [crcCovered_encodeFrame, readByte_encodeFrame_chk]

end

/-- R9: byte `k` of a payload, the most significant first. -/
theorem getElem_be64 (p : Payload) (k : Fin payloadLen) : (be64 p)[k] = p.extractLsb' (56 - 8 * k.val) 8 := by
  match k with
  | 0 | 1 | 2 | 3 | 4 | 5 | 6 | 7 => rfl

/-- R50: byte `k` of the payload is byte `k + 2` of the window. -/
theorem getElem?_add_two (f : Buffer) (k : Fin payloadLen) : f.toList[k.val + 2]? = some (payloadBytes f)[k] := by
  rw [toList_buffer]
  match k with
  | 0 | 1 | 2 | 3 | 4 | 5 | 6 | 7 => rfl

/-- Settles O9: the bytes of an encoded frame, those of the payload by their place in `be64`. -/
theorem encodeLaysOutTheFrame : Obligations.EncodeLaysOutTheFrame := by
  intro c t p
  refine ⟨readByte_encodeFrame_sof c t p, readByte_encodeFrame_type c t p, fun k => ?_, ?_,
    readByte_encodeFrame_eof c t p⟩
  · rw [getElem?_add_two, payloadBytes_encodeFrame, getElem_be64]
  · rw [← crcCovered_eq_take, encodeFrame_checksum]

/-! ## Encode and Decode are inverse to each other (R82, R83) -/

theorem decodeFrame_encodeFrame (c : Params) (t : Byte) (p : Payload) :
    decodeFrame c (encodeFrame c t p) = .ok t p := by
  rw [decodeFrame_of_right_checksum (hasMarkers_encodeFrame c t p) (encodeFrame_checksum c t p),
    readByte_encodeFrame_type, payloadBytes_encodeFrame, unbe64_be64]

/-- A window that fails a test has another verdict, so an accepted one passes all three, and then its fields are those of
the frame. -/
theorem eq_encodeFrame_of_decodeFrame {c : Params} {f : Buffer} {t : Byte} {p : Payload}
    (accepted : decodeFrame c f = .ok t p) : f = encodeFrame c t p := by
  have markers : HasMarkers c f := by_contra fun wrong =>
    nomatch (decodeFrame_of_wrong_marker wrong).symm.trans accepted
  have chk : crc8 (crcCovered f) = readByte f 10 := by_contra fun wrong =>
    nomatch (decodeFrame_of_wrong_checksum markers wrong).symm.trans accepted
  obtain ⟨rfl, rfl⟩ := Verdict.ok.inj ((decodeFrame_of_right_checksum markers chk).symm.trans accepted)
  obtain ⟨sof, eof⟩ := markers
  rw [encodeFrame, crcInput_fields, chk, ← sof, ← eof, frameBytes_fields]

theorem encodeFrame_injective {c : Params} {t t' : Byte} {p p' : Payload}
    (same : encodeFrame c t p = encodeFrame c t' p') : t = t' ∧ p = p' := by
  have verdicts : Verdict.ok t p = .ok t' p' := by
    rw [← decodeFrame_encodeFrame c t p, same, decodeFrame_encodeFrame]
  exact Verdict.ok.inj verdicts

/-- Settles O11: an encoded frame passes the three tests, and `unbe64` undoes `be64`. -/
theorem decodeOfEncodeIsThePair : Obligations.DecodeOfEncodeIsThePair := decodeFrame_encodeFrame

/-- Settles O12: the three tests and the two results fix all twelve bytes, and the round trip makes `Encode` injective. -/
theorem acceptedWindowsAreEncodedFrames : Obligations.AcceptedWindowsAreEncodedFrames :=
  ⟨fun _ _ _ _ => eq_encodeFrame_of_decodeFrame, fun _ _ _ _ _ => encodeFrame_injective⟩

end Sys2Proof.Machine
end

section
/-!
PROOFS. What a changed bit does to the checksum register (40_crc8.md R73 (a), R74): with `n` turns of the loop still to come,
it is changed by `n` turns on 1. Turns on 1 do not come round within 80 bits, so two changed bits never cancel.
-/

namespace Sys2Proof.Machine

/-! ## Turns of the loop -/

theorem crcShifts_add (m n : Nat) (c : Byte) : crcShifts (m + n) c = crcShifts n (crcShifts m c) := by
  induction m generalizing c with
  | zero => rw [Nat.zero_add]; rfl
  | succ m ih => rw [Nat.succ_add]; exact ih _

theorem crcShifts_zero_byte (n : Nat) : crcShifts n 0 = 0 := by
  induction n with
  | zero => rfl
  | succ n ih => exact ih

theorem crcShifts_one_ne_zero (n : Nat) : crcShifts n 1 ≠ 0 := fun zero =>
  absurd (crcShifts_injective n (zero.trans (crcShifts_zero_byte n).symm)) (by decide)

/-- Before a bit of 1 reaches the top of the register a turn only moves it up. -/
theorem twoPow_eq_crcShifts (j : Fin 8) : BitVec.twoPow 8 j = crcShifts j 1 := by
  revert j
  decide

/-- The generator divides no `x^d + 1` with `0 < d < 80`. -/
theorem crcShifts_one_ne_one {d : Nat} (pos : 0 < d) (lt : d < 80) : crcShifts d 1 ≠ 1 := by
  have computed : ∀ d : Fin 80, 0 < d.val → crcShifts d 1 ≠ 1 := by decide
  exact computed ⟨d, lt⟩ pos

theorem crcShifts_one_ne_of_lt {m n : Nat} (lt : m < n) (near : n < m + 80) : crcShifts m 1 ≠ crcShifts n 1 := by
  obtain ⟨d, rfl⟩ := Nat.exists_eq_add_of_lt lt
  rw [show m + d + 1 = (d + 1) + m by omega, crcShifts_add]
  exact fun same => crcShifts_one_ne_one d.succ_pos (by omega) (crcShifts_injective m same).symm

/-! ## A change travels through the loop -/

/-- A byte step carries a change of the register through eight turns. -/
theorem crcStep_xor_left (c d b : Byte) : crcStep (c ^^^ d) b = crcStep c b ^^^ crcShifts 8 d := by
  rw [crcStep, BitVec.xor_assoc, BitVec.xor_comm d, ← BitVec.xor_assoc, crcShifts_xor, ← crcStep]

theorem crcStep_xor_right (c b e : Byte) : crcStep c (b ^^^ e) = crcStep c b ^^^ crcShifts 8 e := by
  rw [crcStep, ← BitVec.xor_assoc, crcShifts_xor, ← crcStep]

theorem crcFrom_xor_left (c d : Byte) (m : List Byte) :
    crcFrom (c ^^^ d) m = crcFrom c m ^^^ crcShifts (8 * m.length) d := by
  induction m generalizing c d with
  | nil => rfl
  | cons b m ih =>
    rw [crcFrom_cons, crcStep_xor_left, ih, ← crcShifts_add, List.length_cons, Nat.mul_succ, Nat.add_comm 8,
      crcFrom_cons]

/-- A changed byte is a change of the register before its own byte step. -/
theorem crcFrom_set_xor (c e : Byte) {m : List Byte} {k : Nat} (hk : k < m.length) :
    crcFrom c (m.set k (m[k] ^^^ e)) = crcFrom c m ^^^ crcShifts (8 * (m.length - k)) e := by
  induction m generalizing c k with
  | nil => cases hk
  | cons b m ih =>
    cases k with
    | zero =>
      calc crcFrom (crcStep c (b ^^^ e)) m
        _ = crcFrom (crcStep c b) m ^^^ crcShifts (8 * m.length) (crcShifts 8 e) := by
          rw [crcStep_xor_right, crcFrom_xor_left]
        _ = crcFrom c (b :: m) ^^^ crcShifts (8 * (m.length + 1)) e := by
          rw [← crcShifts_add, Nat.add_comm 8, crcFrom_cons, Nat.mul_succ]
    | succ k => simpa using ih (crcStep c b) (Nat.lt_of_succ_lt_succ hk)

end Sys2Proof.Machine
end

section
/-!
PROOFS. Encoded frames with flipped bits (41_frame_codec.md R84): a flipped bit of a marker is seen by the marker test, and
bits flipped in bytes 1 to 10 are accepted exactly when their changes of the checksum register cancel.
-/

namespace Sys2Proof.Machine

/-! ## Flipped bits, byte by byte -/

theorem readByte_flipBit_same (f : Buffer) (i : Fin frameLen) (j : Fin 8) :
    readByte (flipBit f i j) i = readByte f i ^^^ BitVec.twoPow 8 j :=
  readByte_writeByte_same ..

theorem readByte_flipBit_other (f : Buffer) {i k : Fin frameLen} (j : Fin 8) (hk : k ≠ i) :
    readByte (flipBit f i j) k = readByte f k :=
  readByte_writeByte_other f _ hk

/-- What a byte of the window is changed by, wherever the flipped bit stands. -/
theorem readByte_flipBit (f : Buffer) (i : Fin frameLen) (j : Fin 8) (k : Fin frameLen) :
    readByte (flipBit f i j) k = readByte f k ^^^ if k = i then BitVec.twoPow 8 j else 0 := by
  split_ifs with hk
  · rw [hk, readByte_flipBit_same]
  · rw [readByte_flipBit_other f j hk]; exact BitVec.xor_zero.symm

theorem flipBit_comm (f : Buffer) (i i' : Fin frameLen) (j j' : Fin 8) :
    flipBit (flipBit f i j) i' j' = flipBit (flipBit f i' j') i j := by
  refine buffer_ext fun k => ?_
  simp only [readByte_flipBit, BitVec.xor_assoc]
  rw [BitVec.xor_comm (ite (k = i) _ _)]

theorem twoPow_ne_zero (j : Fin 8) : BitVec.twoPow 8 j ≠ 0 := by
  rw [twoPow_eq_crcShifts]
  exact crcShifts_one_ne_zero j

theorem twoPow_injective {j j' : Fin 8} (same : BitVec.twoPow 8 j = BitVec.twoPow 8 j') : j = j' := by
  revert j j'
  decide

theorem readByte_flipBit_ne (f : Buffer) (i : Fin frameLen) (j : Fin 8) :
    readByte (flipBit f i j) i ≠ readByte f i := by
  rw [readByte_flipBit_same, Ne, xor_left_eq_self_iff]
  exact twoPow_ne_zero j

/-- Two different flips do not undo each other, in one byte or in two. -/
theorem readByte_flipBit_flipBit_ne (f : Buffer) {i i' : Fin frameLen} {j j' : Fin 8} (ne : (i, j) ≠ (i', j')) :
    readByte (flipBit (flipBit f i j) i' j') i ≠ readByte f i := by
  by_cases hi : i = i'
  · subst hi
    rw [readByte_flipBit_same, readByte_flipBit_same, BitVec.xor_assoc, Ne, xor_left_eq_self_iff]
    exact fun cancel => ne (Prod.ext rfl (twoPow_injective (BitVec.xor_eq_zero_iff.1 cancel)))
  · rw [readByte_flipBit_other _ _ hi]
    exact readByte_flipBit_ne f i j

/-! ## The ten bytes a receiver checks -/

/-- Bytes 1 to 10 of a window: what the checksum covers, and the checksum. -/
def checkedBytes (f : Buffer) : List Byte := (f.toList.drop 1).take 10

theorem checkedBytes_eq_append (f : Buffer) : checkedBytes f = crcCovered f ++ [readByte f 10] := by
  rw [checkedBytes, toList_buffer]; rfl

/-- R73 (b): the test of byte 10 is a test of the register after all ten bytes. -/
theorem checksum_iff_residue (f : Buffer) :
    crc8 (crcCovered f) = readByte f 10 ↔ crcRaw (checkedBytes f) = crcResidue := by
  rw [checkedBytes_eq_append, crcRaw_append_singleton_eq_residue, eq_comm]

theorem crcRaw_checkedBytes_encodeFrame (c : Params) (t : Byte) (p : Payload) :
    crcRaw (checkedBytes (encodeFrame c t p)) = crcResidue :=
  (checksum_iff_residue _).1 (encodeFrame_checksum c t p)

/-- Turns of the loop from a bit of bytes 1 to 10 to the end of byte 10. -/
def turnsToEnd (i : Fin frameLen) (j : Fin 8) : Nat := 8 * (11 - i.val) + j.val

theorem turnsToEnd_injective {i i' : Fin frameLen} {j j' : Fin 8} (same : turnsToEnd i j = turnsToEnd i' j') :
    (i, j) = (i', j') := by
  have lt : i.val < 12 := i.isLt
  have lt' : i'.val < 12 := i'.isLt
  unfold turnsToEnd at same
  rw [Prod.mk.injEq, Fin.ext_iff, Fin.ext_iff]
  omega

theorem length_checkedBytes (f : Buffer) : (checkedBytes f).length = 10 := by simp [checkedBytes]

/-- A byte of a window that is no marker is one of those a receiver checks. -/
theorem body_bounds {i : Fin frameLen} (body : ¬ (i = 0 ∨ i = 11)) : 1 ≤ i.val ∧ i.val ≤ 10 := by
  revert i
  decide

theorem toList_flipBit (f : Buffer) (i : Fin frameLen) (j : Fin 8) :
    (flipBit f i j).toList = f.toList.set i (readByte f i ^^^ BitVec.twoPow 8 j) :=
  Vector.toList_set i.isLt

theorem checkedBytes_flipBit (f : Buffer) {i : Fin frameLen} (j : Fin 8) {k : Nat} (place : i.val = k + 1)
    (hk : k < (checkedBytes f).length) :
    checkedBytes (flipBit f i j) = (checkedBytes f).set k ((checkedBytes f)[k] ^^^ BitVec.twoPow 8 j) := by
  have flipped : readByte f i = (checkedBytes f)[k] := by
    simp [readByte, checkedBytes, place]
  rw [checkedBytes, toList_flipBit, place, ← flipped, Nat.add_comm, ← List.set_drop, List.take_set, checkedBytes]

/-- A flipped bit changes the register by as many turns on 1 as there are from that bit to the end of byte 10. -/
theorem crcRaw_checkedBytes_flipBit (f : Buffer) {i : Fin frameLen} (j : Fin 8) (body : ¬ (i = 0 ∨ i = 11)) :
    crcRaw (checkedBytes (flipBit f i j)) = crcRaw (checkedBytes f) ^^^ crcShifts (turnsToEnd i j) 1 := by
  obtain ⟨pos, le⟩ := body_bounds body
  obtain ⟨k, place⟩ := Nat.exists_eq_add_of_le' pos
  have hk : k < (checkedBytes f).length := by rw [length_checkedBytes]; omega
  have turns : turnsToEnd i j = j.val + 8 * ((checkedBytes f).length - k) := by
    rw [turnsToEnd, length_checkedBytes]; omega
  rw [checkedBytes_flipBit f j place hk, crcRaw, crcFrom_set_xor, twoPow_eq_crcShifts, ← crcShifts_add, ← turns,
    ← crcRaw]

/-! ## The verdicts -/

theorem hasMarkers_flipBit {c : Params} {f : Buffer} (markers : HasMarkers c f) {i : Fin frameLen} (j : Fin 8)
    (body : ¬ (i = 0 ∨ i = 11)) : HasMarkers c (flipBit f i j) := by
  obtain ⟨notSof, notEof⟩ := not_or.1 body
  rwa [HasMarkers, readByte_flipBit_other f j (Ne.symm notSof), readByte_flipBit_other f j (Ne.symm notEof)]

theorem decodeFrame_of_changed_marker {c : Params} {t : Byte} {p : Payload} {f : Buffer} {i : Fin frameLen}
    (marker : i = 0 ∨ i = 11) (changed : readByte f i ≠ readByte (encodeFrame c t p) i) :
    decodeFrame c f = .badFraming := by
  refine decodeFrame_of_wrong_marker fun ⟨sof, eof⟩ => changed ?_
  rcases marker with rfl | rfl
  · exact sof
  · exact eof

theorem decodeFrame_of_not_residue {c : Params} {f : Buffer} (markers : HasMarkers c f)
    (wrong : crcRaw (checkedBytes f) ≠ crcResidue) : decodeFrame c f = .badChecksum :=
  decodeFrame_of_wrong_checksum markers fun right => wrong ((checksum_iff_residue f).1 right)

/-- R84 (a). -/
theorem decodeFrame_flipBit (c : Params) (t : Byte) (p : Payload) (i : Fin frameLen) (j : Fin 8) :
    decodeFrame c (flipBit (encodeFrame c t p) i j) = if i = 0 ∨ i = 11 then .badFraming else .badChecksum := by
  split_ifs with marker
  · exact decodeFrame_of_changed_marker marker (readByte_flipBit_ne _ i j)
  · refine decodeFrame_of_not_residue (hasMarkers_flipBit (hasMarkers_encodeFrame c t p) j marker) ?_
    rw [crcRaw_checkedBytes_flipBit _ j marker, crcRaw_checkedBytes_encodeFrame, Ne, xor_left_eq_self_iff]
    exact crcShifts_one_ne_zero _

theorem turnsToEnd_bounds {i : Fin frameLen} (j : Fin 8) (body : ¬ (i = 0 ∨ i = 11)) :
    8 ≤ turnsToEnd i j ∧ turnsToEnd i j < 88 := by
  have := body_bounds body
  unfold turnsToEnd
  omega

/-- Different bits of bytes 1 to 10 change the register differently. -/
theorem crcShifts_turnsToEnd_ne {i i' : Fin frameLen} {j j' : Fin 8} (ne : (i, j) ≠ (i', j'))
    (body : ¬ (i = 0 ∨ i = 11)) (body' : ¬ (i' = 0 ∨ i' = 11)) :
    crcShifts (turnsToEnd i j) 1 ≠ crcShifts (turnsToEnd i' j') 1 := by
  have bounds := turnsToEnd_bounds j body
  have bounds' := turnsToEnd_bounds j' body'
  rcases Nat.lt_or_gt_of_ne fun same => ne (turnsToEnd_injective same) with lt | gt
  · exact crcShifts_one_ne_of_lt lt (by omega)
  · exact (crcShifts_one_ne_of_lt gt (by omega)).symm

/-- R84 (b). -/
theorem decodeFrame_flipBit_flipBit (c : Params) (t : Byte) (p : Payload) {i i' : Fin frameLen} {j j' : Fin 8}
    (ne : (i, j) ≠ (i', j')) : decodeFrame c (flipBit (flipBit (encodeFrame c t p) i j) i' j') =
      if i = 0 ∨ i = 11 ∨ i' = 0 ∨ i' = 11 then .badFraming else .badChecksum := by
  by_cases marker : i = 0 ∨ i = 11
  · rw [if_pos (or_assoc.1 (.inl marker))]
    exact decodeFrame_of_changed_marker marker (readByte_flipBit_flipBit_ne _ ne)
  by_cases marker' : i' = 0 ∨ i' = 11
  · rw [if_pos (or_assoc.1 (.inr marker')), flipBit_comm]
    exact decodeFrame_of_changed_marker marker' (readByte_flipBit_flipBit_ne _ ne.symm)
  rw [if_neg fun some => (or_assoc.2 some).elim marker marker']
  have markers := hasMarkers_flipBit (hasMarkers_flipBit (hasMarkers_encodeFrame c t p) j marker) j' marker'
  refine decodeFrame_of_not_residue markers ?_
  rw [crcRaw_checkedBytes_flipBit _ j' marker', crcRaw_checkedBytes_flipBit _ j marker,
    crcRaw_checkedBytes_encodeFrame, BitVec.xor_assoc, Ne, xor_left_eq_self_iff]
  exact fun cancel => crcShifts_turnsToEnd_ne ne marker marker' (BitVec.xor_eq_zero_iff.1 cancel)

/-! ## Three flipped bits that cancel (V16) -/

/-- The generator divides `x^35 + x^32 + 1`: 32 turns, taken eight at a time, bring `x^3 + 1` to 1. -/
theorem crcShifts_trinomial : crcShifts 35 1 ^^^ (crcShifts 32 1 ^^^ 1) = 0 := by
  have turns : crcShifts (8 + 8 + 8 + 8) (crcShifts 3 1 ^^^ 1) = 1 := by
    rw [crcShifts_add, crcShifts_add, crcShifts_add, show crcShifts 8 (crcShifts 3 1 ^^^ 1) = 0xF5 by decide,
      show crcShifts 8 0xF5 = 0x16 by decide, show crcShifts 8 0x16 = 0x83 by decide]
    decide
  calc crcShifts (3 + 32) 1 ^^^ (crcShifts 32 1 ^^^ 1)
    _ = crcShifts 32 (crcShifts 3 1 ^^^ 1) ^^^ 1 := by rw [crcShifts_add, ← BitVec.xor_assoc, crcShifts_xor]
    _ = 0 := by rw [turns]; exact BitVec.xor_self

theorem three_flips_cancel :
    crcShifts (turnsToEnd 1 7) 1 ^^^ (crcShifts (turnsToEnd 1 4) 1 ^^^ crcShifts (turnsToEnd 5 4) 1) = 0 :=
  calc crcShifts (35 + 52) 1 ^^^ (crcShifts (32 + 52) 1 ^^^ crcShifts 52 1)
    _ = crcShifts 52 (crcShifts 35 1 ^^^ (crcShifts 32 1 ^^^ 1)) := by simp only [crcShifts_add, crcShifts_xor]
    _ = 0 := by rw [crcShifts_trinomial, crcShifts_zero_byte]

theorem payloadBytes_eq_readByte (f : Buffer) : payloadBytes f =
    #v[readByte f 2, readByte f 3, readByte f 4, readByte f 5, readByte f 6, readByte f 7, readByte f 8, readByte f 9] :=
  rfl

theorem payloadBytes_flipBit_five (f : Buffer) (j : Fin 8) :
    payloadBytes (flipBit f 5 j) = (payloadBytes f).set 3 ((payloadBytes f)[3] ^^^ BitVec.twoPow 8 j) := by
  simp [payloadBytes_eq_readByte, readByte_flipBit]

theorem payloadBytes_flipBit_one (f : Buffer) (j : Fin 8) : payloadBytes (flipBit f 1 j) = payloadBytes f := by
  simp [payloadBytes_eq_readByte, readByte_flipBit]

/-- R84 (c), for every type and payload: with these three bits flipped the frame is accepted with another pair. -/
theorem decodeFrame_three_flips (c : Params) (t : Byte) (p : Payload) :
    decodeFrame c (flipBit (flipBit (flipBit (encodeFrame c t p) 1 7) 1 4) 5 4) =
      .ok (t ^^^ 0x90) (unbe64 ((be64 p).set 3 ((be64 p)[3] ^^^ 0x10))) := by
  have one : ¬ ((1 : Fin frameLen) = 0 ∨ (1 : Fin frameLen) = 11) := by decide
  have five : ¬ ((5 : Fin frameLen) = 0 ∨ (5 : Fin frameLen) = 11) := by decide
  have once := hasMarkers_flipBit (hasMarkers_encodeFrame c t p) 7 one
  have markers := hasMarkers_flipBit (hasMarkers_flipBit once 4 one) 4 five
  have residue : crcRaw (checkedBytes (flipBit (flipBit (flipBit (encodeFrame c t p) 1 7) 1 4) 5 4)) = crcResidue := by
    rw [crcRaw_checkedBytes_flipBit _ _ five, crcRaw_checkedBytes_flipBit _ _ one, crcRaw_checkedBytes_flipBit _ _ one,
      crcRaw_checkedBytes_encodeFrame, BitVec.xor_assoc, BitVec.xor_assoc, three_flips_cancel]
    exact BitVec.xor_zero
  rw [decodeFrame_of_right_checksum markers ((checksum_iff_residue _).2 residue),
    readByte_flipBit_other _ _ (by decide), readByte_flipBit_same, readByte_flipBit_same, readByte_encodeFrame_type,
    payloadBytes_flipBit_five, payloadBytes_flipBit_one, payloadBytes_flipBit_one, payloadBytes_encodeFrame,
    BitVec.xor_assoc]
  rfl

/-- Settles O13: one flip and two flips leave a wrong marker or a wrong residue; the three of V16 cancel, and the byte of
the payload they touch is computed. -/
theorem corruptedFrameVerdicts : Obligations.CorruptedFrameVerdicts := by
  refine ⟨decodeFrame_flipBit, fun c t p _ _ _ _ => decodeFrame_flipBit_flipBit c t p, fun c => ?_⟩
  have payload :
      (be64 0x0123456789ABCDEF).set 3 ((be64 0x0123456789ABCDEF)[3] ^^^ 0x10) = be64 0x0123457789ABCDEF := by decide
  rw [decodeFrame_three_flips, payload, unbe64_be64]
  rfl

end Sys2Proof.Machine
end

section
/-!
PROOFS. What a turn may do, said in both directions: `Move` lists exactly the turns that answer a next state
(42_link_operations.md R108; 20_memory.md R37).
-/

namespace Sys2Proof.Machine

section
variable {s : State}

/-! ## The branch of the sequencer that `Framer` is in (R108) -/

theorem framerStep_eq_put (tx : s.phase = .tx) (short : s.txi.toNat < frameLen) : s.framerStep = s.put := by
  simp only [State.framerStep, tx, if_pos short]

theorem framerStep_eq_drain (tx : s.phase = .tx) (full : s.txi.toNat = frameLen) : s.framerStep = s.drain := by
  simp only [State.framerStep, tx, if_neg full.not_lt]

theorem framerStep_eq_take (rx : s.phase = .rx) (short : s.rxc.toNat < frameLen) : s.framerStep = s.take := by
  simp only [State.framerStep, rx, if_pos short]

theorem framerStep_eq_check (rx : s.phase = .rx) (full : s.rxc.toNat = frameLen) : s.framerStep = s.check := by
  simp only [State.framerStep, rx, if_neg full.not_lt]

/-! ## The check step, by verdict and operation (R104) -/

section
variable (rx : s.phase = .rx) (full : s.rxc.toNat = frameLen)
include rx full

theorem framerStep_of_accepted {ty : Byte} {p : Payload} (good : decodeFrame s.params s.rxbuf = .ok ty p)
    (op : s.op = opFrmRecv ∨ s.op = opFrmRsync) : s.framerStep = some (s.completeOk ty p) := by
  rw [framerStep_eq_check rx full]
  exact check_eq_some.2 ⟨full, .inl ⟨ty, p, good, op, rfl⟩⟩

theorem framerStep_of_rejected_recv {r : Status} (bad : (decodeFrame s.params s.rxbuf).FailsWith r)
    (op : s.op = opFrmRecv) : s.framerStep = some (s.complete r) := by
  rw [framerStep_eq_check rx full]
  exact check_eq_some.2 ⟨full, .inr ⟨r, bad, .inl ⟨op, rfl⟩⟩⟩

theorem framerStep_of_rejected_rsync {r : Status} (bad : (decodeFrame s.params s.rxbuf).FailsWith r)
    (op : s.op = opFrmRsync) : s.framerStep = some (s.attemptFailed r) := by
  have notRecv : s.op ≠ opFrmRecv := by rw [op]; decide
  rw [framerStep_eq_check rx full]
  exact check_eq_some.2 ⟨full, .inr ⟨r, bad, .inr ⟨notRecv, op, rfl⟩⟩⟩

end

theorem attemptFailed_of_last {r : Status} (last : (s.att + 1).toNat = s.params.maxAttempts.toNat) :
    s.attemptFailed r = (if s.params.flushOnFinal then { s with att := s.att + 1 }.rxFlush
      else { s with att := s.att + 1 }).complete r :=
  if_pos last

theorem attemptFailed_of_more {r : Status} (more : (s.att + 1).toNat ≠ s.params.maxAttempts.toNat) :
    s.attemptFailed r = { s with att := s.att + 1, rxq := [], rxc := 0 } :=
  if_neg more

end

/-! ## Turns and moves -/

/-- Every move is enabled: the turn it names answers the state it leaves. -/
theorem takeTurn_of_move {n : Turn} {s t : State} (move : Move n s t) : takeTurn n s = .next t := by
  cases move with
  | crcInit idle next dec | crcUpd idle next dec | crcGet idle next dec | frmSend idle next dec
  | frmRecv idle next dec | frmRsync idle next dec | frmFlush idle next dec =>
    exact issueNext_eq_next.2 ⟨_, _, next, _, dec, whenIdle_of_idle idle _⟩
  | frame w => rfl
  | response head => exact ifEnabled_eq_next.2 (State.takeResponse_eq_some.2 ⟨_, _, head, rfl⟩)
  | read r may => exact State.hostRead_eq_next.2 ⟨may, rfl⟩
  | put tx short =>
    exact ifEnabled_eq_next.2 ((framerStep_eq_put tx short).trans (put_eq_some.2 ⟨short, rfl⟩))
  | drain tx full drained =>
    exact ifEnabled_eq_next.2 ((framerStep_eq_drain tx full).trans (drain_eq_some.2 ⟨full, drained, rfl⟩))
  | take rx short head =>
    exact ifEnabled_eq_next.2 ((framerStep_eq_take rx short).trans (take_eq_some.2 ⟨short, _, _, head, rfl⟩))
  | accept rx full good op => exact ifEnabled_eq_next.2 (framerStep_of_accepted rx full good op)
  | reject rx full bad op => exact ifEnabled_eq_next.2 (framerStep_of_rejected_recv rx full bad op)
  | giveUpFlushed rx full bad op last fof =>
    refine ifEnabled_eq_next.2 ((framerStep_of_rejected_rsync rx full bad op).trans ?_)
    rw [attemptFailed_of_last last, if_pos fof]
    rfl
  | giveUp rx full bad op last fof =>
    refine ifEnabled_eq_next.2 ((framerStep_of_rejected_rsync rx full bad op).trans ?_)
    rw [attemptFailed_of_last last, if_neg (Bool.eq_false_iff.1 fof)]
  | retry rx full bad op more =>
    refine ifEnabled_eq_next.2 ((framerStep_of_rejected_rsync rx full bad op).trans ?_)
    rw [attemptFailed_of_more more]
  | deliver b => rfl
  | wireOut head => exact ifEnabled_eq_next.2 (State.wireOut_eq_some.2 ⟨_, _, head, rfl⟩)
  | timeout rx short starved => exact ifEnabled_eq_next.2 (linkTimeout_eq_some.2 ⟨rx, short, starved, rfl⟩)
  | failTx keep tx => exact ifEnabled_eq_next.2 (linkFail_eq_some.2 (.inl ⟨tx, rfl⟩))
  | failRx keep rx short => exact ifEnabled_eq_next.2 (linkFail_eq_some.2 (.inr ⟨rx, short, rfl⟩))

/-- A step of `Link` that no move describes is not enabled. -/
theorem takeTurn_link_of_no_move {l : LinkStep} {s : State} (noMove : ∀ t, ¬ Move (.link l) s t) :
    takeTurn (.link l) s = .refused .notEnabled := by
  have disabled : s.linkStep l = none :=
    Option.eq_none_iff_forall_ne_some.2 fun t answers => noMove t (linkStep_move answers)
  rw [takeTurn, disabled, ifEnabled]

end Sys2Proof.Machine
end

section
/-!
PROOFS. The transition table of the sequencer (42_link_operations.md R108).
-/

namespace Sys2Proof.Machine

theorem maxAttempts_le_four (c : Params) : c.maxAttempts.toNat ≤ 4 := by
  cases c.maxAttempts <;> decide

/-- Below the bound the three bits of `ATT` do not wrap around (R18). -/
theorem toNat_att_add_one {s : State} (below : s.att.toNat < s.params.maxAttempts.toNat) :
    (s.att + 1).toNat = s.att.toNat + 1 := by
  have bound := maxAttempts_le_four s.params
  exact BitVec.toNat_add_of_lt (show s.att.toNat + 1 < 2 ^ 3 by omega)

section
variable {s : State} (rx : s.phase = .rx) (full : s.rxc.toNat = frameLen)
include rx full

theorem movesTo_check_accepted (op : s.op = opFrmRecv ∨ s.op = opFrmRsync)
    (good : (decodeFrame s.params s.rxbuf).outcome = .ok) :
    MovesTo (step (s.scheduled .framer)) .idle s.txi s.rxc s.att := by
  obtain ⟨ty, p, accepted⟩ := outcome_eq_ok_iff.1 good
  exact ⟨_, takeTurn_of_move (.accept rx full accepted op), rfl, rfl, rfl, rfl⟩

/-- A full window of `FRM.RECV` ends it, whatever the verdict. -/
theorem movesTo_check_recv (op : s.op = opFrmRecv) :
    MovesTo (step (s.scheduled .framer)) .idle s.txi s.rxc s.att := by
  by_cases good : (decodeFrame s.params s.rxbuf).outcome = .ok
  · exact movesTo_check_accepted rx full (.inl op) good
  · exact ⟨_, takeTurn_of_move (.reject rx full (failsWith_iff.2 ⟨rfl, good⟩) op), rfl, rfl, rfl, rfl⟩

variable (op : s.op = opFrmRsync) (bad : (decodeFrame s.params s.rxbuf).outcome ≠ .ok)
include op bad

/-- The last failed attempt of `FRM.RSYNC` ends it; `FLUSH_ON_FINAL` decides on `RXQ` only. -/
theorem movesTo_check_last (last : s.att.toNat + 1 = s.params.maxAttempts.toNat) :
    MovesTo (step (s.scheduled .framer)) .idle s.txi s.rxc (s.att + 1) := by
  have fails := failsWith_iff.2 ⟨rfl, bad⟩
  have counted := (toNat_att_add_one (by omega)).trans last
  cases fof : s.params.flushOnFinal
  case true => exact ⟨_, takeTurn_of_move (.giveUpFlushed rx full fails op counted fof), rfl, rfl, rfl, rfl⟩
  case false => exact ⟨_, takeTurn_of_move (.giveUp rx full fails op counted fof), rfl, rfl, rfl, rfl⟩

theorem movesTo_check_retry (more : s.att.toNat + 1 < s.params.maxAttempts.toNat) :
    MovesTo (step (s.scheduled .framer)) .rx s.txi 0 (s.att + 1) := by
  have counted : (s.att + 1).toNat ≠ s.params.maxAttempts.toNat := by
    rw [toNat_att_add_one (by omega)]
    exact more.ne
  exact ⟨_, takeTurn_of_move (.retry rx full (failsWith_iff.2 ⟨rfl, bad⟩) op counted), rx, rfl, rfl, rfl⟩

end

/-- Settles O35: each row of the table is a move, so its turn is enabled; a turn that is enabled makes a move, and that
move carries the condition of its row or, of a turn that is in no row, keeps `PHASE` and the counters. None of it needs the
state to be legal. -/
theorem sequencerFollowsTheTable : Obligations.SequencerFollowsTheTable := by
  intro s _
  refine ⟨fun w more i idle next dec => ⟨?_, ?_, ?_, ?_⟩, fun tx => ⟨?_, ?_, ?_⟩, fun rx short => ⟨?_, ?_, ?_⟩,
    fun rx full => ⟨movesTo_check_recv rx full, ?_, movesTo_check_last rx full, movesTo_check_retry rx full⟩,
    fun n t run => ?_⟩
  · rintro (rfl | ⟨x, rfl⟩ | rfl | rfl)
    · exact ⟨_, takeTurn_of_move (.crcInit idle next dec), idle, rfl, rfl, rfl⟩
    · exact ⟨_, takeTurn_of_move (.crcUpd idle next dec), idle, rfl, rfl, rfl⟩
    · exact ⟨_, takeTurn_of_move (.crcGet idle next dec), idle, rfl, rfl, rfl⟩
    · exact ⟨_, takeTurn_of_move (.frmFlush idle next dec), idle, rfl, rfl, rfl⟩
  · rintro ⟨ty, p, rfl⟩
    exact ⟨_, takeTurn_of_move (.frmSend idle next dec), rfl, rfl, rfl, rfl⟩
  · rintro rfl
    exact ⟨_, takeTurn_of_move (.frmRecv idle next dec), rfl, rfl, rfl, rfl⟩
  · rintro rfl
    exact ⟨_, takeTurn_of_move (.frmRsync idle next dec), rfl, rfl, rfl, rfl⟩
  · exact fun short => ⟨_, takeTurn_of_move (.put tx short), tx, rfl, rfl, rfl⟩
  · exact fun full drained => ⟨_, takeTurn_of_move (.drain tx full drained), rfl, rfl, rfl, rfl⟩
  · exact fun keep => ⟨_, takeTurn_of_move (.failTx keep tx), rfl, rfl, rfl, rfl⟩
  · intro avail
    obtain ⟨b, rest, head⟩ := List.exists_cons_of_ne_nil avail
    exact ⟨_, takeTurn_of_move (.take rx short head), rx, rfl, rfl, rfl⟩
  · exact fun starved => ⟨_, takeTurn_of_move (.timeout rx short starved), rfl, rfl, rfl, rfl⟩
  · exact fun keep => ⟨_, takeTurn_of_move (.failRx keep rx short), rfl, rfl, rfl, rfl⟩
  · exact fun op => movesTo_check_accepted rx full (.inr op)
  · cases takeTurn_move run with
    | crcInit idle next dec | crcUpd idle next dec | crcGet idle next dec | frmSend idle next dec
    | frmRecv idle next dec | frmRsync idle next dec | frmFlush idle next dec => exact ⟨idle, _, _, _, next, dec⟩
    | put tx short => exact .inl ⟨tx, .inl short⟩
    | drain tx full drained => exact .inl ⟨tx, .inr ⟨full, drained⟩⟩
    | take rx short head => exact .inr ⟨rx, .inl ⟨short, head ▸ List.cons_ne_nil _ _⟩⟩
    | accept rx full good op => exact .inr ⟨rx, .inr ⟨full, op⟩⟩
    | reject rx full bad op => exact .inr ⟨rx, .inr ⟨full, .inl op⟩⟩
    | giveUpFlushed rx full bad op | giveUp rx full bad op | retry rx full bad op =>
      exact .inr ⟨rx, .inr ⟨full, .inr op⟩⟩
    | timeout rx short starved => exact ⟨rx, short, starved⟩
    | failTx keep tx => exact .inl tx
    | failRx keep rx short => exact .inr ⟨rx, short⟩
    | frame | response | read | deliver | wireOut => exact ⟨rfl, rfl, rfl, rfl⟩

end Sys2Proof.Machine
end

section
/-!
PROOFS. `FRM.FLUSH`, and the two steps of `Link` that end a receive attempt (42_link_operations.md R107, R102, R103).
-/

namespace Sys2Proof.Machine

theorem exec_frmFlush_eq_next {s t : State} : exec .frmFlush s = .next t ↔ s.busy = false ∧
    t = { s.rxFlush with op := opFrmFlush, status := .ok }.respond opFrmFlush Status.ok.code none none :=
  whenIdle_eq_next_iff_not_busy

/-- Code 0x7 leaves both other fields of the command word unread (R53). -/
@[simp] theorem decodeCmd_frmFlush (a : Byte) (d : Payload) : decodeCmd (cmdWord 0x7 a d) = .ok .frmFlush := by
  simp [decodeCmd]

/-- Settles O20: the inversion lemma read from right to left, then from left to right; the flush does not write `PHASE`,
so the block is as idle after it as before. -/
theorem flushEmptiesTheInput : Obligations.FlushEmptiesTheInput := by
  refine ⟨fun _ idle => ⟨_, _, exec_frmFlush_eq_next.2 ⟨idle, rfl⟩⟩, fun s t run => ?_, decodeCmd_frmFlush⟩
  obtain ⟨idle, rfl⟩ := exec_frmFlush_eq_next.1 run
  exact ⟨idle, idle⟩

/-- Settles O24: the one move of a `timeout` turn needs a starved attempt. -/
theorem timeoutEndsAStarvedAttempt : Obligations.TimeoutEndsAStarvedAttempt := by
  refine fun s => ⟨fun rx short starved => ⟨_, _, takeTurn_of_move (.timeout rx short starved)⟩,
    fun notStarved => takeTurn_link_of_no_move fun t move => ?_⟩
  cases move with
  | timeout rx short starved => exact notStarved ⟨rx, short, starved⟩

/-- Settles O25: of the two moves of a `fail` turn the one of a receive needs a window that is not full. -/
theorem receiveFailureEndsTheAttempt : Obligations.ReceiveFailureEndsTheAttempt := by
  refine fun s keep rx => ⟨fun short => ⟨_, _, takeTurn_of_move (.failRx keep rx short)⟩,
    fun full => takeTurn_link_of_no_move fun t move => ?_⟩
  cases move with
  | failTx _ tx => cases rx.symm.trans tx
  | failRx _ _ short => exact full.not_gt short

end Sys2Proof.Machine
end

section
/-!
PROOFS. What a step does, said of the turn it takes: the move of that turn, or nothing where there is no turn.
-/

namespace Sys2Proof.Machine

/-- A step makes the move of its turn, with that turn used up, or leaves a state that has no turn as it is. -/
theorem move_of_step {s t : State} (run : step s = .next t) :
    (∃ n, s.nextTurn = some n ∧ Move n { s with sched := s.sched.tail } t) ∨ (s.nextTurn = none ∧ t = s) := by
  rcases step_move run with ⟨n, turn, move⟩ | ⟨empty, noTurn, same⟩
  · exact .inl ⟨n, nextTurn_eq_some.2 turn, move⟩
  · exact .inr ⟨by rw [State.nextTurn, empty]; exact noTurn, same⟩

/-- The turn a step takes: the scheduled one, or the default one. -/
theorem step_of_nextTurn {s : State} {n : Turn} (turn : s.nextTurn = some n) :
    step s = takeTurn n { s with sched := s.sched.tail } := by
  unfold State.nextTurn at turn
  unfold step stepOnce
  split at turn
  · rename_i scheduled
    cases turn
    rw [scheduled, List.tail_cons]
  · rename_i empty
    rw [turn, empty, List.tail_nil]
    exact congrArg (takeTurn n) (by rw [← empty])

/-- The move of its turn is what a step does. -/
theorem step_of_move {s t : State} {n : Turn} (turn : s.nextTurn = some n)
    (move : Move n { s with sched := s.sched.tail } t) : step s = .next t :=
  (step_of_nextTurn turn).trans (takeTurn_of_move move)

theorem step_of_no_turn {s : State} (noTurn : s.nextTurn = none) : step s = .next s := by
  unfold State.nextTurn at noTurn
  split at noTurn
  · cases noTurn
  · rename_i empty
    simp only [step, stepOnce, empty, noTurn]

theorem framerStep_isSome_iff {s : State} : s.framerStep.isSome = true ↔ ∃ t, Move .framer s t :=
  Option.isSome_iff_exists.trans
    (exists_congr fun _ => ⟨framerStep_move, fun move => ifEnabled_eq_next.1 (takeTurn_of_move move)⟩)

theorem linkTimeout_isSome_iff {s : State} : s.linkTimeout.isSome = true ↔ ∃ t, Move (.link .timeout) s t :=
  Option.isSome_iff_exists.trans
    (exists_congr fun _ => ⟨linkStep_move (l := .timeout), fun move => ifEnabled_eq_next.1 (takeTurn_of_move move)⟩)

/-- The turn a step takes depends on the schedule and on what is enabled. -/
theorem nextTurn_congr {s s' : State} (sched : s'.sched = s.sched) (phase : s'.phase = s.phase)
    (txq : s'.txq = s.txq) (program : s'.program = s.program)
    (enabled : ∀ n, n ≠ .host → ((∃ t, Move n s' t) ↔ ∃ t, Move n s t)) : s'.nextTurn = s.nextTurn := by
  have framer : s'.framerStep.isSome = s.framerStep.isSome :=
    Bool.eq_iff_iff.2 (framerStep_isSome_iff.trans ((enabled .framer nofun).trans framerStep_isSome_iff.symm))
  have timeout : s'.linkTimeout.isSome = s.linkTimeout.isSome :=
    Bool.eq_iff_iff.2 (linkTimeout_isSome_iff.trans ((enabled (.link .timeout) nofun).trans linkTimeout_isSome_iff.symm))
  unfold State.nextTurn State.defaultTurn State.txDrained
  rw [framer, timeout, sched, phase, txq, program]

/-- A relation between a state and the next that asks nothing of the schedule holds of every step when it holds of every
move. -/
theorem step_of_moves {R : State → State → Prop} (refl : ∀ s, R s s)
    (sched : ∀ s t later, R { s with sched := later } t → R s t) (moves : ∀ n s t, Move n s t → R s t)
    {s t : State} (run : step s = .next t) : R s t := by
  rcases move_of_step run with ⟨n, -, move⟩ | ⟨-, rfl⟩
  · exact sched s t _ (moves n _ t move)
  · exact refl t

/-- A move of `Host`'s own turn is an issue; no other move is. -/
theorem not_issues_of_nextTurn {s : State} (turn : s.nextTurn ≠ some .host) (i : Instr) : ¬ s.Issues i :=
  fun issues => turn (step_of_issues issues).1

/-- The counters of a buffer do not wrap around while the buffer is not full (R17). -/
theorem toNat_add_one_of_lt {i : BitVec 4} (short : i.toNat < frameLen) : (i + 1).toNat = i.toNat + 1 :=
  BitVec.toNat_add_of_lt (show i.toNat + 1 < 2 ^ 4 by have : frameLen = 12 := rfl; omega)

end Sys2Proof.Machine
end


section
/-!
PROOFS. Contents no rule reads (10_state.md R11, R13, R14; U3, U9): states that differ only in them make the same moves.
-/

namespace Sys2Proof.Machine

theorem AgreeUpToStale.symm {s s' : State} (agree : AgreeUpToStale s s') : AgreeUpToStale s' s := by
  obtain ⟨same, txbuf, rxbuf, result⟩ := agree
  rw [same] at txbuf rxbuf result ⊢
  exact ⟨rfl, fun tx => (txbuf tx).symm, fun rx => (rxbuf rx).symm, fun valid => (result valid).imp Eq.symm Eq.symm⟩

/-- A full window is seen in full (R104). -/
theorem AgreeUpToStale.rxbuf_eq_of_full {s s' : State} (agree : AgreeUpToStale s s') (rx : s.phase = .rx)
    (full : s.rxc.toNat = frameLen) : s'.rxbuf = s.rxbuf := by
  have reached := agree.rxbuf rx
  rw [full, take_all, take_all] at reached
  exact Vector.toList_inj.1 reached

/-- A read of a result register returns it only while `RVALID = 1` (R11). -/
theorem AgreeUpToStale.hostValue_eq {s s' : State} (agree : AgreeUpToStale s s') (r : HostReg) :
    s'.hostValue r = s.hostValue r := by
  have result := agree.result
  rw [agree.same]
  cases r <;> cases valid : s.rvalid <;> simp [State.hostValue, State.busy, valid, result]

/-- A move of the one state is a move of the other: what it reads they agree on, and what it makes readable it has
written. -/
theorem Move.agree {n : Turn} {s s' t : State} (agree : AgreeUpToStale s s') (move : Move n s t) :
    ∃ t', Move n s' t' ∧ AgreeUpToStale t t' := by
  have window := agree.rxbuf_eq_of_full
  have value := agree.hostValue_eq
  obtain ⟨same, txbuf, rxbuf, result⟩ := agree
  generalize s'.txbuf = tb at *
  generalize s'.rxbuf = rb at *
  generalize s'.typeRx = ty' at *
  generalize s'.payloadRx = p' at *
  subst same
  cases move with
  | crcInit idle next dec => exact ⟨_, .crcInit idle next dec, rfl, txbuf, rxbuf, result⟩
  | crcUpd idle next dec => exact ⟨_, .crcUpd idle next dec, rfl, txbuf, rxbuf, result⟩
  | crcGet idle next dec => exact ⟨_, .crcGet idle next dec, rfl, txbuf, rxbuf, result⟩
  | frmSend idle next dec => exact ⟨_, .frmSend idle next dec, rfl, fun _ => rfl, nofun, result⟩
  | frmRecv idle next dec => exact ⟨_, .frmRecv idle next dec, rfl, nofun, fun _ => rfl, nofun⟩
  | frmRsync idle next dec => exact ⟨_, .frmRsync idle next dec, rfl, nofun, fun _ => rfl, nofun⟩
  | frmFlush idle next dec => exact ⟨_, .frmFlush idle next dec, rfl, txbuf, rxbuf, result⟩
  | frame w => exact ⟨_, .frame w, rfl, txbuf, rxbuf, result⟩
  | response head => exact ⟨_, .response head, rfl, txbuf, rxbuf, result⟩
  | read r may =>
    refine ⟨_, .read r may, ?_, txbuf, rxbuf, result⟩
    rw [value]
  | put tx short =>
    cases txbuf tx
    exact ⟨_, .put (by exact tx) (by exact short), rfl, txbuf, rxbuf, result⟩
  | drain tx full drained => exact ⟨_, .drain tx full drained, rfl, nofun, nofun, result⟩
  | take rx short head =>
    refine ⟨_, .take (by exact rx) (by exact short) head, rfl, txbuf, fun _ => ?_, result⟩
    rw [toNat_add_one_of_lt short, take_succ_writeByte _ ⟨_, short⟩, take_succ_writeByte _ ⟨_, short⟩, rxbuf rx]
  | accept rx full good op =>
    cases window rx full
    exact ⟨_, .accept rx full good op, rfl, nofun, nofun, fun _ => ⟨rfl, rfl⟩⟩
  | reject rx full bad op =>
    cases window rx full
    exact ⟨_, .reject rx full bad op, rfl, nofun, nofun, result⟩
  | giveUpFlushed rx full bad op last fof =>
    cases window rx full
    exact ⟨_, .giveUpFlushed rx full bad op last fof, rfl, nofun, nofun, result⟩
  | giveUp rx full bad op last fof =>
    cases window rx full
    exact ⟨_, .giveUp rx full bad op last fof, rfl, nofun, nofun, result⟩
  | retry rx full bad op more =>
    cases window rx full
    exact ⟨_, .retry rx full bad op more, rfl, txbuf, fun _ => rfl, result⟩
  | deliver b => exact ⟨_, .deliver b, rfl, txbuf, rxbuf, result⟩
  | wireOut head => exact ⟨_, .wireOut head, rfl, txbuf, rxbuf, result⟩
  | timeout rx short starved => exact ⟨_, .timeout rx short starved, rfl, nofun, nofun, result⟩
  | failTx keep tx => exact ⟨_, .failTx keep tx, rfl, nofun, nofun, result⟩
  | failRx keep rx short => exact ⟨_, .failRx keep rx short, rfl, nofun, nofun, result⟩

/-- Neither of two agreeing states can make a move of a turn that the other cannot make. -/
theorem AgreeUpToStale.enabled_iff {s s' : State} (agree : AgreeUpToStale s s') (n : Turn) :
    (∃ t, Move n s' t) ↔ ∃ t, Move n s t := by
  constructor
  · rintro ⟨t, move⟩
    exact (move.agree agree.symm).imp fun _ => And.left
  · rintro ⟨t, move⟩
    exact (move.agree agree).imp fun _ => And.left

theorem AgreeUpToStale.nextTurn_eq {s s' : State} (agree : AgreeUpToStale s s') : s'.nextTurn = s.nextTurn := by
  refine nextTurn_congr ?_ ?_ ?_ ?_ fun n _ => agree.enabled_iff n <;> rw [agree.same]

theorem AgreeUpToStale.withSched {s s' : State} (agree : AgreeUpToStale s s') :
    AgreeUpToStale { s with sched := s.sched.tail } { s' with sched := s'.sched.tail } := by
  obtain ⟨same, txbuf, rxbuf, result⟩ := agree
  exact ⟨by rw [same], txbuf, rxbuf, result⟩

/-- Settles O57: agreeing states have the same turn and the same moves of it. -/
theorem staleContentsNeverMatter : Obligations.StaleContentsNeverMatter := by
  intro s s' t agree run
  rcases move_of_step run with ⟨n, turn, move⟩ | ⟨noTurn, rfl⟩
  · obtain ⟨t', move', agree'⟩ := move.agree agree.withSched
    exact ⟨t', step_of_move (agree.nextTurn_eq.trans turn) move', agree'⟩
  · exact ⟨s', step_of_no_turn (agree.nextTurn_eq.trans noTurn), agree⟩

end Sys2Proof.Machine
end

section
/-!
PROOFS. Responses and the operation in progress (42_link_operations.md R95; 60_exceptions.md R122): a move while an operation
is in progress leaves it in progress and sends nothing, or completes it and sends its response; from an idle block a move
that issues nothing sends nothing.
-/

namespace Sys2Proof.Machine

/-! ## All responses sent, before and after -/

@[simp] theorem State.responses_respond (op : BitVec 4) (st : BitVec 3) (a : Option Byte) (d : Option Payload)
    (s : State) : (s.respond op st a d).responses =
      s.responses ++ [⟨op, st, a.getD (Config.freeByte s.draws), d.getD (Config.freePayload s.draws)⟩] :=
  (List.append_assoc ..).symm

@[simp] theorem State.responses_complete (st : Status) (s : State) : (s.complete st).responses =
    s.responses ++ [⟨s.op, st.code, Config.freeByte s.draws, Config.freePayload s.draws⟩] :=
  State.responses_respond ..

@[simp] theorem State.responses_completeOk (t : Byte) (p : Payload) (s : State) :
    (s.completeOk t p).responses = s.responses ++ [⟨s.op, Status.ok.code, t, p⟩] :=
  State.responses_respond ..

/-- A response that `Host` takes stays among those sent. -/
theorem State.responses_take {s : State} {r : Response} {rest : List Response} (head : s.rspq = r :: rest) :
    State.responses { s with rspq := rest, hostLog := s.hostLog ++ [.response r] } = s.responses := by
  simp [State.responses, HostEvent.toResponse, head]

theorem State.responses_read (s : State) (r : HostReg) (v : Payload) (k : Nat) :
    State.responses { s with hostLog := s.hostLog ++ [.register r v], draws := k } = s.responses := by
  simp [State.responses, HostEvent.toResponse]

/-! ## Moves of a busy block and of an idle one -/

/-- `PHASE`, `OP` and `STATUS` are as before and nothing is said to `Host`. -/
structure Quiet (s t : State) : Prop where
  phase : t.phase = s.phase
  op : t.op = s.op
  status : t.status = s.status
  responses : t.responses = s.responses

/-- The operation in progress completes: one response names it and its outcome, and a send has no outcome of a window. -/
structure Completes (s t : State) : Prop where
  phase : t.phase = .idle
  op : t.op = s.op
  outcome : s.phase = .tx → t.status = .ok ∨ t.status = .ioFail
  response : ∃ a d, t.responses = s.responses ++ [⟨s.op, t.status.code, a, d⟩]

section
variable {n : Turn} {s t : State}

theorem Move.of_busy (move : Move n s t) (busy : s.phase ≠ .idle) : Quiet s t ∨ Completes s t := by
  cases move with
  | crcInit idle | crcUpd idle | crcGet idle | frmSend idle | frmRecv idle | frmRsync idle | frmFlush idle =>
    exact absurd idle busy
  | frame | put | take | retry | deliver | wireOut => exact .inl ⟨rfl, rfl, rfl, rfl⟩
  | response head => exact .inl ⟨rfl, rfl, rfl, State.responses_take head⟩
  | read r => exact .inl ⟨rfl, rfl, rfl, State.responses_read ..⟩
  | drain => exact .inr ⟨rfl, rfl, fun _ => .inl rfl, ⟨_, _, State.responses_complete ..⟩⟩
  | failTx => exact .inr ⟨rfl, rfl, fun _ => .inr rfl, ⟨_, _, State.responses_complete ..⟩⟩
  | accept rx => exact .inr ⟨rfl, rfl, fun tx => (nomatch rx.symm.trans tx), ⟨_, _, State.responses_completeOk ..⟩⟩
  | reject rx | giveUpFlushed rx | giveUp rx | timeout rx | failRx _ rx =>
    exact .inr ⟨rfl, rfl, fun tx => (nomatch rx.symm.trans tx), ⟨_, _, State.responses_complete ..⟩⟩

/-- An idle block moves only where `Host` issues a command, hears of an earlier one, or bytes move on the link. -/
theorem Move.of_idle (move : Move n s t) (idle : s.phase = .idle) : n = .host ∨ Quiet s t := by
  cases move with
  | crcInit | crcUpd | crcGet | frmSend | frmRecv | frmRsync | frmFlush => exact .inl rfl
  | frame | deliver | wireOut => exact .inr ⟨rfl, rfl, rfl, rfl⟩
  | response head => exact .inr ⟨rfl, rfl, rfl, State.responses_take head⟩
  | read r => exact .inr ⟨rfl, rfl, rfl, State.responses_read ..⟩
  | put busy | drain busy | take busy | accept busy | reject busy | giveUpFlushed busy | giveUp busy | retry busy
  | timeout busy | failTx _ busy | failRx _ busy => cases idle.symm.trans busy

end

end Sys2Proof.Machine
end

section
/-!
PROOFS. The legal states (10_state.md R16 to R21, 93_implementation_defined.md U11): every step keeps a state legal, and a
run starts in one.
-/

namespace Sys2Proof.Machine

theorem maxAttempts_pos (c : Params) : 0 < c.maxAttempts.toNat := by
  cases c.maxAttempts <;> decide

/-- The two receive operations can complete with every outcome (R121). -/
theorem statusPossible_of_receive {op : BitVec 4} (receive : op = opFrmRecv ∨ op = opFrmRsync) (r : Status) :
    statusPossible op r.code = true := by
  rcases receive with rfl | rfl <;> cases r <;> rfl

section
variable {s : State}

/-! ## The control registers, by phase -/

theorem State.controlFits_of_idle (idle : s.phase = .idle) : s.ControlFits ↔
    (s.op = 0 ∧ s.status = .ok) ∨ (IsLinkOp s.op ∧ statusPossible s.op s.status.code = true) := by
  rw [State.ControlFits, idle]

theorem State.controlFits_of_tx (tx : s.phase = .tx) : s.ControlFits ↔ s.op = opFrmSend := by
  rw [State.ControlFits, tx]

theorem State.controlFits_of_rx (rx : s.phase = .rx) : s.ControlFits ↔ s.rvalid = false ∧
    (s.op = opFrmRecv ∨ (s.op = opFrmRsync ∧ s.att.toNat < s.params.maxAttempts.toNat)) := by
  rw [State.ControlFits, rx]

namespace State.Inv
variable (legal : s.Inv)
include legal

theorem op_of_tx (tx : s.phase = .tx) : s.op = opFrmSend :=
  (controlFits_of_tx tx).1 legal.controlFits

theorem rvalid_of_rx (rx : s.phase = .rx) : s.rvalid = false :=
  ((controlFits_of_rx rx).1 legal.controlFits).1

theorem op_of_rx (rx : s.phase = .rx) : s.op = opFrmRecv ∨ s.op = opFrmRsync :=
  ((controlFits_of_rx rx).1 legal.controlFits).2.imp_right And.left

/-- A resynchronisation in progress has an attempt left (R104). -/
theorem att_lt (rx : s.phase = .rx) (op : s.op = opFrmRsync) : s.att.toNat < s.params.maxAttempts.toNat := by
  rcases ((controlFits_of_rx rx).1 legal.controlFits).2 with recv | ⟨-, left⟩
  · rw [op] at recv
    cases recv
  · exact left

end State.Inv
end

section
variable {n : Turn} {s t : State}

theorem State.ResponsesFit.append {r : Response} (fit : s.ResponsesFit) (more : t.responses = s.responses ++ [r])
    (possible : statusPossible r.op r.status = true) : t.ResponsesFit := by
  intro q sent
  rw [more, List.mem_append, List.mem_singleton] at sent
  rcases sent with old | rfl
  · exact fit q old
  · exact possible

theorem State.ResponsesFit.of_quiet (fit : s.ResponsesFit) (quiet : Quiet s t) : t.ResponsesFit := by
  rwa [State.ResponsesFit, quiet.responses]

variable (legal : s.Inv)
include legal

/-! ## Outcomes an operation in progress can have (R121) -/

theorem State.Inv.statusPossible_of_tx (tx : s.phase = .tx) {r : Status} (outcome : r = .ok ∨ r = .ioFail) :
    statusPossible s.op r.code = true := by
  rw [legal.op_of_tx tx]
  rcases outcome with rfl | rfl <;> rfl

theorem State.Inv.statusPossible_of_rx (rx : s.phase = .rx) (r : Status) : statusPossible s.op r.code = true :=
  statusPossible_of_receive (legal.op_of_rx rx) r

theorem State.Inv.statusPossible_of_completes (busy : s.phase ≠ .idle) (ends : Completes s t) :
    statusPossible s.op t.status.code = true := by
  cases phase : s.phase with
  | idle => exact absurd phase busy
  | tx => exact legal.statusPossible_of_tx phase (ends.outcome phase)
  | rx => exact legal.statusPossible_of_rx phase _

/-! ## What each move keeps -/

variable (move : Move n s t)
include move

theorem Move.keeps_inRange : t.InRange := by
  obtain ⟨txi, rxc, att⟩ := legal.inRange
  cases move with
  | frmSend => exact ⟨Nat.zero_le _, rxc, att⟩
  | frmRecv => exact ⟨txi, Nat.zero_le _, att⟩
  | frmRsync => exact ⟨txi, Nat.zero_le _, Nat.zero_le _⟩
  | put tx short => exact ⟨(toNat_add_one_of_lt short).trans_le short, rxc, att⟩
  | take rx short head => exact ⟨txi, (toNat_add_one_of_lt short).trans_le short, att⟩
  | giveUpFlushed rx full bad op last | giveUp rx full bad op last => exact ⟨txi, rxc, last.le⟩
  | retry rx full bad op more =>
    exact ⟨txi, Nat.zero_le _, (toNat_att_add_one (legal.att_lt rx op)).trans_le (legal.att_lt rx op)⟩
  | _ => exact ⟨txi, rxc, att⟩

theorem Move.keeps_controlFits : t.ControlFits := by
  have control := legal.controlFits
  cases move with
  | frmSend => exact rfl
  | frmRecv => exact ⟨rfl, .inl rfl⟩
  | frmRsync => exact ⟨rfl, .inr ⟨rfl, maxAttempts_pos _⟩⟩
  | frmFlush idle => exact (State.controlFits_of_idle (by exact idle)).2 (.inr ⟨.inr (.inr (.inr rfl)), rfl⟩)
  | drain tx => exact .inr ⟨.inl (legal.op_of_tx tx), legal.statusPossible_of_tx tx (.inl rfl)⟩
  | failTx keep tx => exact .inr ⟨.inl (legal.op_of_tx tx), legal.statusPossible_of_tx tx (.inr rfl)⟩
  | accept rx | reject rx | giveUpFlushed rx | giveUp rx | timeout rx | failRx _ rx =>
    exact .inr ⟨.inr ((legal.op_of_rx rx).imp_right .inl), legal.statusPossible_of_rx rx _⟩
  | retry rx full bad op more =>
    have left := toNat_att_add_one (legal.att_lt rx op)
    refine (State.controlFits_of_rx (by exact rx)).2 ⟨legal.rvalid_of_rx rx, .inr ⟨op, ?_⟩⟩
    exact Nat.lt_of_le_of_ne (left.trans_le (legal.att_lt rx op)) more
  | _ => exact control

theorem Move.keeps_resultFits : t.ResultFits := by
  have result := legal.resultFits
  cases move with
  | frmRecv | frmRsync => exact nofun
  | take rx => exact fun valid => nomatch valid.symm.trans (legal.rvalid_of_rx rx)
  | accept rx full good => exact fun _ => eq_encodeFrame_of_decodeFrame good
  | _ => exact result

theorem Move.keeps_sendFits : t.SendFits := by
  have send := legal.sendFits
  cases move with
  | frmSend => exact fun _ => ⟨⟨_, _, rfl⟩, _, (List.append_nil _).symm⟩
  | put tx short =>
    obtain ⟨frame, before, stream⟩ := send tx
    refine fun _ => ⟨frame, before, ?_⟩
    rw [toNat_add_one_of_lt short, take_succ_readByte _ ⟨_, short⟩, ← List.append_assoc, ← stream]
    exact (List.append_assoc ..).symm
  | wireOut head =>
    intro tx
    obtain ⟨frame, before, stream⟩ := send tx
    refine ⟨frame, before, stream ▸ ?_⟩
    simp [State.txStream, head]
  | frmRecv | frmRsync | drain | accept | reject | giveUp | giveUpFlushed | timeout | failRx | failTx => exact nofun
  | _ => exact send

theorem Move.keeps_responsesFit : t.ResponsesFit := by
  have fit := legal.responsesFit
  by_cases idle : s.phase = .idle
  · rcases move.of_idle idle with rfl | quiet
    · cases move with
      | crcInit | crcUpd | crcGet | frmFlush => exact fit.append (State.responses_respond ..) rfl
      | frmSend | frmRecv | frmRsync => exact fit
    · exact fit.of_quiet quiet
  · rcases move.of_busy idle with quiet | ends
    · exact fit.of_quiet quiet
    · obtain ⟨a, d, response⟩ := ends.response
      exact fit.append response (legal.statusPossible_of_completes idle ends)

theorem Move.keeps_legal : t.Inv where
  inRange := move.keeps_inRange legal
  controlFits := move.keeps_controlFits legal
  resultFits := move.keeps_resultFits legal
  sendFits := move.keeps_sendFits legal
  responsesFit := move.keeps_responsesFit legal

end

theorem step_keeps_legal {s t : State} (legal : s.Inv) (run : step s = .next t) : t.Inv :=
  step_keeps (fun _ _ ⟨range, control, result, send, responses⟩ => ⟨range, control, result, send, responses⟩)
    (fun _ _ _ legal turn => (takeTurn_move turn).keeps_legal legal) legal run

/-- Settles O40: every move keeps each of the five parts of a legal state. -/
theorem everyStepKeepsTheStateLegal : Obligations.EveryStepKeepsTheStateLegal := fun _ _ => step_keeps_legal

/-! ## Where a run starts -/

/-- Settles O39: in a launch state the counters and the control registers are zero, nothing is valid, nothing is being sent
and no response has been sent. -/
theorem launchStatesAreLegal : Obligations.LaunchStatesAreLegal := by
  refine ⟨fun s idle reset _ responses => ?_, rfl, State.reset_regsReset, rfl, rfl⟩
  obtain ⟨-, txi, rxc, att, op, status, rvalid, -⟩ := reset
  exact
    { inRange := by simp [State.InRange, txi, rxc, att]
      controlFits := (State.controlFits_of_idle idle).2 (.inl ⟨op, status⟩)
      resultFits := fun valid => nomatch valid.symm.trans rvalid
      sendFits := fun tx => nomatch idle.symm.trans tx
      responsesFit := by simp [State.ResponsesFit, responses] }

/-- Settles O38: reset is a launch state. -/
theorem resetIsLegal : Obligations.ResetIsLegal := by
  obtain ⟨launch, idle, regs, empty, silent⟩ := launchStatesAreLegal
  exact launch State.reset idle regs empty silent

end Sys2Proof.Machine
end

section
/-!
PROOFS. A send and a receive, from issue to completion (42_link_operations.md R96 to R104): what every move keeps of the one
in progress, and how a move ends it.
-/

namespace Sys2Proof.Machine

/-! ## A send (R96 to R98) -/

section
variable {before : List Byte} {ty : Byte} {p : Payload} {s u : State}

theorem sendUnderWay_of_issue (run : exec (.frmSend ty p) s = .next u) : SendUnderWay s.txStream ty p u := by
  obtain ⟨-, rfl⟩ := whenIdle_eq_next.1 run
  exact ⟨rfl, rfl, rfl, Nat.zero_le _, (List.append_nil _).symm⟩

theorem SendUnderWay.withSched (way : SendUnderWay before ty p s) (later : List Turn) :
    SendUnderWay before ty p { s with sched := later } := by
  obtain ⟨phase, op, txbuf, txi, stream⟩ := way
  exact ⟨phase, op, txbuf, txi, stream⟩

theorem Move.of_send {n : Turn} (way : SendUnderWay before ty p s) (move : Move n s u) :
    SendUnderWay before ty p u ∨ SendDone before ty p u ∨ SendFailed before ty p u := by
  obtain ⟨tx, op, frame, range, stream⟩ := way
  cases move with
  | crcInit other | crcUpd other | crcGet other | frmSend other | frmRecv other | frmRsync other | frmFlush other
  | take other | accept other | reject other | giveUpFlushed other | giveUp other | retry other | timeout other
  | failRx _ other => cases tx.symm.trans other
  | frame | response | read | deliver => exact .inl ⟨tx, op, frame, range, stream⟩
  | put _ short =>
    refine .inl ⟨tx, op, frame, (toNat_add_one_of_lt short).trans_le short, ?_⟩
    rw [toNat_add_one_of_lt short, take_succ_readByte _ ⟨_, short⟩, ← List.append_assoc, ← stream]
    exact (List.append_assoc ..).symm
  | wireOut head =>
    refine .inl ⟨tx, op, frame, range, stream ▸ ?_⟩
    simp [State.txStream, head]
  | drain _ full drained =>
    refine .inr (.inl ⟨rfl, rfl, drained, ?_⟩)
    rw [State.txStream, drained, List.append_nil, full, take_all, frame] at stream
    exact stream
  | failTx keep =>
    refine .inr (.inr ⟨rfl, rfl, ?_, frame⟩)
    have kept : s.wire ++ s.txq.take keep <+: s.txStream := (List.prefix_append_right_inj _).2 (List.take_prefix ..)
    exact kept.trans (stream ▸ (List.prefix_append_right_inj _).2 (frame ▸ List.take_prefix ..))

/-- Settles O41: the issue of a send, and the moves of one under way. -/
theorem sendPutsItsFrameOnTheWire : Obligations.SendPutsItsFrameOnTheWire := by
  refine ⟨fun _ _ _ _ => sendUnderWay_of_issue, fun before ty p s u way run => ?_⟩
  rcases move_of_step run with ⟨n, -, move⟩ | ⟨-, rfl⟩
  · exact move.of_send (way.withSched _)
  · exact .inl way

end

/-! ## A receive (R99 to R104) -/

section
variable {old : Byte × Payload} {arrived : List Byte} {s u : State}

theorem recvUnderWay_of_issue (run : exec .frmRecv s = .next u) : RecvUnderWay (s.typeRx, s.payloadRx) s.rxq u := by
  obtain ⟨-, rfl⟩ := whenIdle_eq_next.1 run
  exact ⟨rfl, rfl, rfl, ⟨rfl, rfl⟩, Nat.zero_le _, rfl⟩

theorem RecvUnderWay.withSched (way : RecvUnderWay old arrived s) (later : List Turn) :
    RecvUnderWay old arrived { s with sched := later } := by
  obtain ⟨phase, op, rvalid, results, rxc, stream⟩ := way
  exact ⟨phase, op, rvalid, results, rxc, stream⟩

/-- The bytes taken are the first ones of the stream, those that wait the rest. -/
theorem RecvUnderWay.split (way : RecvUnderWay old arrived s) :
    s.rxbuf.toList.take s.rxc.toNat = arrived.take s.rxc.toNat ∧ s.rxq = arrived.drop s.rxc.toNat := by
  have len : (s.rxbuf.toList.take s.rxc.toNat).length = s.rxc.toNat := by simpa using way.rxc
  exact ⟨way.stream ▸ (List.take_left' len).symm, way.stream ▸ (List.drop_left' len).symm⟩

/-- A receive that completes on its full window has decoded the next twelve bytes. -/
theorem RecvUnderWay.decoded (way : RecvUnderWay old arrived s) (full : s.rxc.toNat = frameLen) (idle : u.phase = .idle)
    (rest : u.rxq = s.rxq) (verdict : RecvVerdict old (decodeFrame u.params s.rxbuf) u) :
    RecvDecoded old arrived u := by
  obtain ⟨taken, waiting⟩ := way.split
  rw [full] at taken waiting
  exact ⟨idle, s.rxbuf, (take_all _).symm.trans taken, rest.trans waiting, verdict⟩

/-- A verdict that is not `OK` leaves the result registers as they were. -/
theorem recvVerdict_of_failsWith {v : Verdict} (bad : v.FailsWith u.status) (rvalid : u.rvalid = false)
    (results : u.Results old) : RecvVerdict old v u := by
  rcases bad with ⟨rfl, status⟩ | ⟨rfl, status⟩ <;> exact ⟨status, rvalid, results⟩

/-- The bytes a turn delivers (R37). -/
def Turn.delivers : Turn → List Byte
  | .link (.deliver b) => [b]
  | .frame w => (frameBytes (frameSof w) (frameType w) (framePayload w) (frameChk w) (frameEof w)).toList
  | _ => []

theorem Move.of_recv {n : Turn} (way : RecvUnderWay old arrived s) (move : Move n s u) :
    RecvUnderWay old (arrived ++ n.delivers) u ∨ RecvDecoded old arrived u ∨ RecvCutShort old arrived u := by
  have ⟨rx, op, rvalid, results, range, stream⟩ := way
  cases move with
  | crcInit other | crcUpd other | crcGet other | frmSend other | frmRecv other | frmRsync other | frmFlush other
  | put other | drain other | failTx _ other => cases rx.symm.trans other
  | giveUpFlushed _ _ _ other | giveUp _ _ _ other | retry _ _ _ other => cases op.symm.trans other
  | response | read | wireOut =>
    refine .inl ⟨rx, op, rvalid, results, range, ?_⟩
    exact stream.trans (List.append_nil _).symm
  | frame | deliver =>
    refine .inl ⟨rx, op, rvalid, results, range, ?_⟩
    rw [← stream]
    exact (List.append_assoc ..).symm
  | take _ short head =>
    refine .inl ⟨rx, op, rvalid, results, (toNat_add_one_of_lt short).trans_le short, ?_⟩
    rw [toNat_add_one_of_lt short, take_succ_writeByte _ ⟨_, short⟩, ← stream, head]
    simp [Turn.delivers]
  | accept _ full good =>
    refine .inr (.inl (way.decoded full rfl rfl ?_))
    rw [State.completeOk_params, good]
    exact ⟨rfl, rfl, rfl, rfl⟩
  | reject _ full bad => exact .inr (.inl (way.decoded full rfl rfl (recvVerdict_of_failsWith bad rvalid results)))
  | timeout _ short starved =>
    have all := List.drop_eq_nil_iff.1 (way.split.2.symm.trans starved)
    exact .inr (.inr ⟨rfl, rvalid, results, .inl ⟨rfl, all.trans_lt short, starved⟩⟩)
  | failRx _ _ short => exact .inr (.inr ⟨rfl, rvalid, results, .inr ⟨rfl, short, way.split.2⟩⟩)

/-- What arrives in a step is what its turn delivers; the default turn delivers nothing. -/
theorem delivers_of_nextTurn {n : Turn} (turn : s.nextTurn = some n) : n.delivers = s.arriving := by
  unfold State.arriving
  rcases nextTurn_eq_some.1 turn with sched | ⟨sched, default⟩
  · obtain ⟨rest, sched⟩ := List.head?_eq_some_iff.1 sched
    rw [sched]
    cases n with
    | link l => cases l <;> rfl
    | _ => rfl
  · rw [sched]
    rcases defaultTurn_cases default with ⟨rfl, -⟩ | ⟨rfl, -⟩ | ⟨rfl, -⟩ | ⟨rfl, -⟩ <;> rfl

theorem arriving_of_no_turn (noTurn : s.nextTurn = none) : s.arriving = [] := by
  unfold State.nextTurn at noTurn
  unfold State.arriving
  split at noTurn
  · cases noTurn
  · rename_i sched
    rw [sched]

/-- Settles O42: the issue of a receive, and the moves of one under way. -/
theorem recvTakesTheNextTwelveBytes : Obligations.RecvTakesTheNextTwelveBytes := by
  refine ⟨fun _ _ => recvUnderWay_of_issue, fun old arrived s u way run => ?_⟩
  rcases move_of_step run with ⟨n, turn, move⟩ | ⟨noTurn, rfl⟩
  · rw [← delivers_of_nextTurn turn]
    exact move.of_recv (way.withSched _)
  · rw [arriving_of_no_turn noTurn, List.append_nil]
    exact .inl way

end

end Sys2Proof.Machine
end

section
/-!
PROOFS. The words of the opcode table (30_encoding.md R50 to R55): which command codes select an operation, and decoding an
encoded word.
-/

namespace Sys2Proof.Machine

/-! ## The command port -/

/-- R53, R55. -/
theorem decodeCmd_ok_iff (w : CmdWord) : (∃ i, decodeCmd w = .ok i) ↔ 1 ≤ (cmdOp w).toNat ∧ (cmdOp w).toNat ≤ 7 := by
  constructor
  · rintro ⟨i, dec⟩
    by_contra reserved
    cases dec.symm.trans (decodeCmd_of_reserved (by omega))
  · rintro ⟨low, high⟩
    have code : (cmdOp w).toNat = 1 ∨ (cmdOp w).toNat = 2 ∨ (cmdOp w).toNat = 3 ∨ (cmdOp w).toNat = 4 ∨
      (cmdOp w).toNat = 5 ∨ (cmdOp w).toNat = 6 ∨ (cmdOp w).toNat = 7 := by omega
    rcases code with code | code | code | code | code | code | code <;>
      (unfold decodeCmd; rw [code]; exact ⟨_, rfl⟩)

/-- R52: only `CRC.UPD` and `FRM.SEND` read a field but the code. -/
theorem decodeCmd_eq_of_cmdOp_eq {w w' : CmdWord} (same : cmdOp w = cmdOp w') (notUpd : cmdOp w ≠ opCrcUpd)
    (notSend : cmdOp w ≠ opFrmSend) : decodeCmd w = decodeCmd w' := by
  unfold decodeCmd
  rw [← same]
  split
  case h_2 code => exact absurd (BitVec.eq_of_toNat_eq code) notUpd
  case h_4 code => exact absurd (BitVec.eq_of_toNat_eq code) notSend
  all_goals rfl

/-- Settles O15: the codes that select an operation, the reserved ones, and the fields no code reads. -/
theorem commandCodesSelectOperations : Obligations.CommandCodesSelectOperations := by
  refine ⟨decodeCmd_ok_iff, fun w => decodeCmd_of_reserved, fun op a a' d d' notUpd notSend => ?_, fun a d d' => ?_⟩
  · apply decodeCmd_eq_of_cmdOp_eq <;> simp only [cmdOp_cmdWord]
    · exact notUpd
    · exact notSend
  · rw [decodeCmd_crcUpd, decodeCmd_crcUpd]

/-! Code 0x4 reads both other fields of the command word, codes 0x5 and 0x6 none (R53). -/

@[simp] theorem decodeCmd_frmSend (t : Byte) (p : Payload) : decodeCmd (cmdWord 0x4 t p) = .ok (.frmSend t p) := by
  simp [decodeCmd]

@[simp] theorem decodeCmd_frmRecv (a : Byte) (d : Payload) : decodeCmd (cmdWord 0x5 a d) = .ok .frmRecv := by
  simp [decodeCmd]

@[simp] theorem decodeCmd_frmRsync (a : Byte) (d : Payload) : decodeCmd (cmdWord 0x6 a d) = .ok .frmRsync := by
  simp [decodeCmd]

/-! ## The ports of a table word, by its width (log entry 15) -/

theorem decodeTableWord_cmd {w : CmdWord} {i : Instr} (dec : decodeCmd w = .ok i) :
    decodeTableWord 76 w.toNat = some i ∧ decodeTableWord 80 w.toNat = some i := by
  have fits : w.toNat < 2 ^ 76 := w.isLt
  simp only [decodeTableWord, decodeWord, if_pos fits, BitVec.ofNat_toNat, BitVec.setWidth_eq, dec, and_self]

theorem decodeTableWord_rsp {w : RspWord} {i : Instr} (dec : decodeRsp w = .ok i) :
    decodeTableWord 79 w.toNat = some i ∧ (2 ^ 76 ≤ w.toNat → decodeTableWord 80 w.toNat = some i) := by
  simp only [decodeTableWord, decodeWord, BitVec.ofNat_toNat, BitVec.setWidth_eq, dec, true_and]
  intro long
  rw [if_neg long.not_gt]

theorem decodeTableWord_frame (w : FrameWord) : decodeTableWord 96 w.toNat = some (decodeFrameWord w) := by
  simp only [decodeTableWord, decodeWord, BitVec.ofNat_toNat, BitVec.setWidth_eq]

theorem decodeFrameWord_frameWord (sof t : Byte) (p : Payload) (chk eof : Byte) :
    decodeFrameWord (frameWord sof t p chk eof) = .frame sof t p chk eof := by
  simp [decodeFrameWord]

theorem defined_of_statusPossible {op : BitVec 4} {st : BitVec 3} (possible : statusPossible op st = true) :
    opDefined op = true ∧ statusDefined st = true := by
  revert op st
  decide

/-- R54, R120: a response the block can send is read as it is. -/
theorem decodeRsp_rspWord {op : BitVec 4} {st : BitVec 3} (a : Byte) (d : Payload)
    (possible : statusPossible op st = true) : decodeRsp (rspWord op st a d) = .ok (.rsp op st a d) := by
  simp [decodeRsp, defined_of_statusPossible possible]

/-- The code of a response word is its topmost field, so only code 0x1 leaves it below 2^76 (R54). -/
theorem rspWord_long {op : BitVec 4} (st : BitVec 3) (a : Byte) (d : Payload) (code : 2 ≤ op.toNat) :
    2 ^ 76 ≤ (rspWord op st a d).toNat := by
  have top : op.toNat = (rspWord op st a d).toNat >>> 75 % 2 ^ 4 := by
    rw [← BitVec.extractLsb'_toNat, ← rspOp, rspOp_rspWord]
  rw [Nat.shiftRight_eq_div_pow] at top
  omega

/-- Settles O14: each word is read at its own port, and there its fields are taken out as they were put in; at 80 bits a
response is told from a command by its code. -/
theorem decodeOfEncodeIsTheInstruction : Obligations.DecodeOfEncodeIsTheInstruction := by
  intro c i wf
  cases i with
  | crcInit => exact (decodeTableWord_cmd (decodeCmd_crcInit 0 0)).imp_right fun bytes _ _ => bytes
  | crcUpd x => exact (decodeTableWord_cmd (decodeCmd_crcUpd x 0)).imp_right fun bytes _ _ => bytes
  | crcGet => exact (decodeTableWord_cmd (decodeCmd_crcGet 0 0)).imp_right fun bytes _ _ => bytes
  | frmSend t p => exact (decodeTableWord_cmd (decodeCmd_frmSend t p)).imp_right fun bytes _ _ => bytes
  | frmRecv => exact (decodeTableWord_cmd (decodeCmd_frmRecv 0 0)).imp_right fun bytes _ _ => bytes
  | frmRsync => exact (decodeTableWord_cmd (decodeCmd_frmRsync 0 0)).imp_right fun bytes _ _ => bytes
  | frmFlush => exact (decodeTableWord_cmd (decodeCmd_frmFlush 0 0)).imp_right fun bytes _ _ => bytes
  | frame sof t p chk eof =>
    refine ⟨?_, fun short => absurd rfl short⟩
    exact (decodeTableWord_frame _).trans (congrArg some (decodeFrameWord_frameWord ..))
  | rsp op st a d =>
    refine (decodeTableWord_rsp (decodeRsp_rspWord a d wf)).imp_right fun bytes _ notInit => bytes ?_
    have notOne : op.toNat ≠ 1 := fun one => notInit st a d (by rw [BitVec.eq_of_toNat_eq (y := 0x1) one])
    have low : 1 ≤ op.toNat := by simpa using (Bool.and_eq_true_iff.1 (defined_of_statusPossible wf).1).1
    exact rspWord_long st a d (by omega)

/-- Settles O16: each word is the word of its fields; the last one's code at the command port is reserved. -/
theorem writtenOutWordsDecode : Obligations.WrittenOutWordsDecode := by
  unfold Obligations.WrittenOutWordsDecode
  decide

end Sys2Proof.Machine
end

section
/-!
PROOFS. Rules of the whole machine (10_state.md R11 to R23; 20_memory.md R44; 42_link_operations.md R95): which moves write
a register, a buffer or a stream, and that every other move leaves it.
-/

namespace Sys2Proof.Machine

/-! ## What is issued runs -/

section
variable {s t : State} (run : step s = .next t)
include run

theorem exec_of_issues {i : Instr} (issues : s.Issues i) :
    ∃ more, exec i { s with program := more, sched := s.sched.tail } = .next t := by
  obtain ⟨-, -, w, more, -, -, exec⟩ := step_of_issues issues
  exact ⟨more, exec.symm.trans run⟩

end

/-! ## Parameters, result registers and buffers -/

/-- Settles O58: no move writes them. -/
theorem parametersNeverChange : Obligations.ParametersNeverChange := fun _ _ =>
  step_of_moves (R := fun s t => t.params = s.params) (fun _ => rfl) (fun _ _ _ => id)
    (fun _ _ _ move => by cases move <;> rfl)

/-- Settles O53: `accept` is the one move that writes the result registers. -/
theorem resultsComeFromAcceptedWindows : Obligations.ResultsComeFromAcceptedWindows := by
  intro s t run changed
  rcases move_of_step run with ⟨n, -, move⟩ | ⟨-, rfl⟩
  · cases move with
    | accept rx full good => exact ⟨rx, full, good, rfl, rfl, rfl⟩
    | _ => exact absurd ⟨rfl, rfl⟩ (not_and_or.2 changed)
  · exact absurd ⟨rfl, rfl⟩ (not_and_or.2 changed)

/-- Settles O54: `TXBUF` is written by the issue of a send and `RXBUF` by a take. -/
theorem buffersAreWrittenByTheirOperations : Obligations.BuffersAreWrittenByTheirOperations := by
  intro s t run
  rcases move_of_step run with ⟨n, turn, move⟩ | ⟨-, rfl⟩
  · cases move with
    | frmSend idle next dec => exact ⟨.inr ⟨_, _, issues_of_nextTurn turn idle next dec, rfl⟩, .inl rfl⟩
    | take rx short head =>
      exact ⟨.inl rfl, .inr ⟨rx, short, rfl, fun i other => readByte_writeByte_other _ _ (Fin.ne_of_val_ne other)⟩⟩
    | _ => exact ⟨.inl rfl, .inl rfl⟩
  · exact ⟨.inl rfl, .inl rfl⟩

/-! ## The checksum register -/

/-- Settles O51: `CRC.INIT` and `CRC.UPD` are the two moves that write it. -/
theorem onlyCrcOperationsWriteCrc : Obligations.OnlyCrcOperationsWriteCrc := by
  intro s t run
  rcases move_of_step run with ⟨n, turn, move⟩ | ⟨-, rfl⟩
  · cases move with
    | crcInit idle next dec => exact .inr (.inl ⟨issues_of_nextTurn turn idle next dec, rfl⟩)
    | crcUpd idle next dec => exact .inr (.inr ⟨_, issues_of_nextTurn turn idle next dec, rfl⟩)
    | _ => exact .inl rfl
  · exact .inl rfl

/-- The move issues an operation that works on `CRC`. -/
def IssuesCrc (n : Turn) (s : State) : Prop :=
  n = .host ∧ s.phase = .idle ∧ ∃ w more i, s.program = w :: more ∧ decodeCmd w = .ok i ∧
    (i = .crcInit ∨ i = .crcGet ∨ ∃ x, i = .crcUpd x)

/-- Every other move is one from any value in `CRC`. -/
theorem Move.withCrc {n : Turn} {s t : State} (move : Move n s t) (c : Byte) :
    IssuesCrc n s ∨ Move n { s with crc := c } { t with crc := c } := by
  cases move with
  | crcInit idle next dec => exact .inl ⟨rfl, idle, _, _, _, next, dec, .inl rfl⟩
  | crcUpd idle next dec => exact .inl ⟨rfl, idle, _, _, _, next, dec, .inr (.inr ⟨_, rfl⟩)⟩
  | crcGet idle next dec => exact .inl ⟨rfl, idle, _, _, _, next, dec, .inr (.inl rfl)⟩
  | frmSend idle next dec => exact .inr (.frmSend idle next dec)
  | frmRecv idle next dec => exact .inr (.frmRecv idle next dec)
  | frmRsync idle next dec => exact .inr (.frmRsync idle next dec)
  | frmFlush idle next dec => exact .inr (.frmFlush (by exact idle) next dec)
  | frame w => exact .inr (.frame w)
  | response head => exact .inr (.response head)
  | read r may =>
    have value : State.hostValue r { s with crc := c } = s.hostValue r := by cases r <;> rfl
    exact .inr (value ▸ .read r may)
  | put tx short => exact .inr (.put (by exact tx) (by exact short))
  | drain tx full drained => exact .inr (.drain (by exact tx) full drained)
  | take rx short head => exact .inr (.take (by exact rx) (by exact short) head)
  | accept rx full good op => exact .inr (.accept (by exact rx) full good op)
  | reject rx full bad op => exact .inr (.reject (by exact rx) full bad op)
  | giveUpFlushed rx full bad op last fof => exact .inr (.giveUpFlushed (by exact rx) full bad op last fof)
  | giveUp rx full bad op last fof => exact .inr (.giveUp (by exact rx) full bad op last fof)
  | retry rx full bad op more => exact .inr (.retry rx full bad op more)
  | deliver b => exact .inr (.deliver b)
  | wireOut head => exact .inr (.wireOut head)
  | timeout rx short starved => exact .inr (.timeout (by exact rx) short starved)
  | failTx keep tx => exact .inr (.failTx keep (by exact tx))
  | failRx keep rx short => exact .inr (.failRx keep (by exact rx) short)

/-- Whatever stands in `CRC`, the same turn is next. -/
theorem nextTurn_withCrc (s : State) (c : Byte) : State.nextTurn { s with crc := c } = s.nextTurn := by
  refine nextTurn_congr rfl rfl rfl rfl fun n notHost => ⟨?_, ?_⟩
  · rintro ⟨t, move⟩
    rcases move.withCrc s.crc with ⟨host, -⟩ | back
    · exact absurd host notHost
    · exact ⟨_, back⟩
  · rintro ⟨t, move⟩
    rcases move.withCrc c with ⟨host, -⟩ | there
    · exact absurd host notHost
    · exact ⟨_, there⟩

/-- Settles O52: with another value in `CRC` the same turn is next, and its move is the same but for that value. -/
theorem frameTrafficIgnoresCrc : Obligations.FrameTrafficIgnoresCrc := by
  intro s t c notInit notGet notUpd run
  rcases move_of_step run with ⟨n, turn, move⟩ | ⟨noTurn, rfl⟩
  · rcases move.withCrc c with ⟨rfl, idle, w, more, i, next, dec, isCrc⟩ | there
    · have issues := issues_of_nextTurn turn idle next dec
      rcases isCrc with rfl | rfl | ⟨x, rfl⟩
      · exact absurd issues notInit
      · exact absurd issues notGet
      · exact absurd issues (notUpd x)
    · exact step_of_move ((nextTurn_withCrc s c).trans turn) there
  · exact step_of_no_turn ((nextTurn_withCrc t c).trans noTurn)

end Sys2Proof.Machine
end

section
/-!
PROOFS. Responses, control registers and streams, step by step (20_memory.md R44; 42_link_operations.md R95; 10_state.md R15
to R21).
-/

namespace Sys2Proof.Machine

/-! ## One response per operation -/

section
variable {s t : State} (run : step s = .next t)
include run

theorem step_of_busy (busy : s.phase ≠ .idle) : Quiet s t ∨ Completes s t := by
  rcases move_of_step run with ⟨n, -, move⟩ | ⟨-, rfl⟩
  · rcases move.of_busy busy with ⟨phase, op, status, responses⟩ | ⟨phase, op, outcome, response⟩
    · exact .inl ⟨phase, op, status, responses⟩
    · exact .inr ⟨phase, op, outcome, response⟩
  · exact .inl ⟨rfl, rfl, rfl, rfl⟩

/-- Where `Host` issues nothing an idle block stays idle and sends nothing. -/
theorem step_of_idle (idle : s.phase = .idle) (noHost : s.nextTurn ≠ some .host) : Quiet s t := by
  rcases move_of_step run with ⟨n, turn, move⟩ | ⟨-, rfl⟩
  · rcases move.of_idle idle with rfl | ⟨phase, op, status, responses⟩
    · exact absurd turn noHost
    · exact ⟨phase, op, status, responses⟩
  · exact ⟨rfl, rfl, rfl, rfl⟩

theorem response_of_issuesAtOnce {op : BitVec 4} (issues : s.IssuesAtOnce op) :
    t.phase = .idle ∧ ∃ r, t.responses = s.responses ++ [r] ∧ r.op = op ∧ r.status = 0 := by
  rcases issues with ⟨rfl, issues⟩ | ⟨rfl, x, issues⟩ | ⟨rfl, issues⟩ | ⟨rfl, issues⟩
  all_goals
    obtain ⟨more, exec⟩ := exec_of_issues run issues
    obtain ⟨idle, rfl⟩ := whenIdle_eq_next.1 exec
    exact ⟨idle, _, State.responses_respond .., rfl, rfl⟩

/-- A command that is not done at once sends nothing when it is issued, and leaves the block busy. -/
theorem silent_of_host (idle : s.phase = .idle) (host : s.nextTurn = some .host) (notAtOnce : ∀ op, ¬ s.IssuesAtOnce op) :
    t.responses = s.responses ∧ t.phase ≠ .idle ∧ (s.IssuesSend ∨ s.Issues .frmRecv ∨ s.Issues .frmRsync) := by
  rcases move_of_step run with ⟨n, turn, move⟩ | ⟨noTurn, -⟩
  · cases host.symm.trans turn
    cases move with
    | crcInit _ next dec => exact absurd (.inl ⟨rfl, issues_of_nextTurn host idle next dec⟩) (notAtOnce _)
    | crcUpd _ next dec => exact absurd (.inr (.inl ⟨rfl, _, issues_of_nextTurn host idle next dec⟩)) (notAtOnce _)
    | crcGet _ next dec =>
      exact absurd (.inr (.inr (.inl ⟨rfl, issues_of_nextTurn host idle next dec⟩))) (notAtOnce _)
    | frmFlush _ next dec =>
      exact absurd (.inr (.inr (.inr ⟨rfl, issues_of_nextTurn host idle next dec⟩))) (notAtOnce _)
    | frmSend _ next dec => exact ⟨rfl, nofun, .inl ⟨_, _, issues_of_nextTurn host idle next dec⟩⟩
    | frmRecv _ next dec => exact ⟨rfl, nofun, .inr (.inl (issues_of_nextTurn host idle next dec))⟩
    | frmRsync _ next dec => exact ⟨rfl, nofun, .inr (.inr (issues_of_nextTurn host idle next dec))⟩
  · cases host.symm.trans noTurn

end

/-- Settles O50: a busy block goes on in silence or completes; an idle one sends a response for a command done at once,
and none for another command or for no command. -/
theorem oneResponsePerOperation : Obligations.OneResponsePerOperation := by
  intro s t run
  simp only [State.busy_eq_true, State.busy_eq_false]
  refine ⟨fun busy => ?_, fun op => response_of_issuesAtOnce run, fun idle notAtOnce => ?_⟩
  · rcases step_of_busy run busy with ⟨phase, -, -, responses⟩ | ⟨phase, -, -, a, d, response⟩
    · exact .inl ⟨phase ▸ busy, responses⟩
    · exact .inr ⟨phase, _, response, rfl, rfl⟩
  · by_cases host : s.nextTurn = some .host
    · obtain ⟨responses, busy, issues⟩ := silent_of_host run idle host notAtOnce
      exact ⟨responses, fun _ => issues, fun _ => busy⟩
    · obtain ⟨phase, -, -, responses⟩ := step_of_idle run idle host
      have notIssues := not_issues_of_nextTurn host
      refine ⟨responses, fun busy => absurd (phase.trans idle) busy, ?_⟩
      rintro (⟨_, _, issues⟩ | issues | issues) <;> exact absurd issues (notIssues _)

/-! ## The streams -/

/-- Settles O56: `wireOut`, `put` and a failed send are the moves that touch `WIRE` and `TXQ`; deliveries, `take`, `FRM.FLUSH`
and the check of a resynchronisation those that touch `RXQ`. -/
theorem streamsAreFirstInFirstOut : Obligations.StreamsAreFirstInFirstOut := by
  intro s t run
  rcases move_of_step run with ⟨n, turn, move⟩ | ⟨noTurn, rfl⟩
  · have arriving := delivers_of_nextTurn turn
    rw [← arriving]
    have still : s.rxq = s.rxq ++ [] := (List.append_nil _).symm
    cases move with
    | frame | deliver => exact ⟨.inl ⟨rfl, rfl⟩, .inl rfl⟩
    | put tx short => exact ⟨.inr (.inr (.inl ⟨rfl, tx, short, rfl⟩)), .inl still⟩
    | wireOut head => exact ⟨.inr (.inl ⟨_, head, rfl⟩), .inl still⟩
    | failTx keep tx => exact ⟨.inr (.inr (.inr ⟨rfl, tx, List.take_prefix .., rfl⟩)), .inl still⟩
    | take rx short head => exact ⟨.inl ⟨rfl, rfl⟩, .inr (.inl ⟨⟨_, head⟩, rx, short⟩)⟩
    | frmFlush idle next dec =>
      exact ⟨.inl ⟨rfl, rfl⟩, .inr (.inr ⟨rfl, .inl (issues_of_nextTurn turn idle next dec)⟩)⟩
    | retry rx full _ op | giveUpFlushed rx full _ op =>
      exact ⟨.inl ⟨rfl, rfl⟩, .inr (.inr ⟨rfl, .inr ⟨rx, op, full⟩⟩)⟩
    | _ => exact ⟨.inl ⟨rfl, rfl⟩, .inl still⟩
  · exact ⟨.inl ⟨rfl, rfl⟩, .inl (by rw [arriving_of_no_turn noTurn, List.append_nil])⟩

/-! ## The control registers -/

/-- A failed attempt is counted, whether or not it is the last (R104). -/
@[simp] theorem attemptFailed_att (r : Status) (s : State) : (s.attemptFailed r).att = s.att + 1 := by
  rcases attemptFailed_cases r s with ⟨-, -, failed⟩ | ⟨-, -, failed⟩ | ⟨-, failed⟩ <;> rw [failed] <;> rfl

section
variable {s t : State} (run : step s = .next t)
include run

theorem op_of_step : (s.IssuesSend → t.op = opFrmSend) ∧ (s.Issues .frmRecv → t.op = opFrmRecv) ∧
    (s.Issues .frmRsync → t.op = opFrmRsync) ∧ (s.Issues .frmFlush → t.op = opFrmFlush) ∧
    (¬ s.IssuesSend → ¬ s.Issues .frmRecv → ¬ s.Issues .frmRsync → ¬ s.Issues .frmFlush → t.op = s.op) := by
  refine ⟨?_, ?_, ?_, ?_, fun notSend notRecv notRsync notFlush => ?_⟩
  · rintro ⟨ty, p, issues⟩
    obtain ⟨more, exec⟩ := exec_of_issues run issues
    obtain ⟨-, rfl⟩ := whenIdle_eq_next.1 exec
    rfl
  iterate 3
    intro issues
    obtain ⟨more, exec⟩ := exec_of_issues run issues
    obtain ⟨-, rfl⟩ := whenIdle_eq_next.1 exec
    rfl
  rcases move_of_step run with ⟨n, turn, move⟩ | ⟨-, rfl⟩
  · cases move with
    | frmSend idle next dec => exact absurd ⟨_, _, issues_of_nextTurn turn idle next dec⟩ notSend
    | frmRecv idle next dec => exact absurd (issues_of_nextTurn turn idle next dec) notRecv
    | frmRsync idle next dec => exact absurd (issues_of_nextTurn turn idle next dec) notRsync
    | frmFlush idle next dec => exact absurd (issues_of_nextTurn turn idle next dec) notFlush
    | _ => rfl
  · rfl

/-- A step that ends the operation in progress is one of those that complete it, with their outcome (R97 to R104). -/
theorem completesWith_of_step (busy : s.phase ≠ .idle) (idle : t.phase = .idle) : s.CompletesWith t.status := by
  rcases move_of_step run with ⟨n, turn, move⟩ | ⟨-, rfl⟩
  · cases move with
    | drain tx => exact .inl ⟨turn, tx, rfl⟩
    | accept rx _ good => exact .inr (.inl ⟨turn, rx, (outcome_eq_ok_iff.2 ⟨_, _, good⟩).symm⟩)
    | reject rx _ bad | giveUpFlushed rx _ bad | giveUp rx _ bad =>
      exact .inr (.inl ⟨turn, rx, (failsWith_iff.1 bad).1.symm⟩)
    | timeout => exact .inr (.inr (.inl ⟨turn, rfl⟩))
    | failTx | failRx => exact .inr (.inr (.inr ⟨_, turn, rfl⟩))
    | frmSend | frmRecv | frmRsync => cases idle
    | _ => exact absurd idle busy
  · exact absurd idle busy

theorem status_of_step : (s.Issues .frmFlush → t.status = .ok) ∧
    (¬ s.Issues .frmFlush → ¬ (s.phase ≠ .idle ∧ t.phase = .idle) → t.status = s.status) := by
  refine ⟨fun issues => ?_, fun notFlush goesOn => ?_⟩
  · obtain ⟨more, exec⟩ := exec_of_issues run issues
    obtain ⟨-, rfl⟩ := whenIdle_eq_next.1 exec
    rfl
  rcases move_of_step run with ⟨n, turn, move⟩ | ⟨-, rfl⟩
  · cases move with
    | frmFlush idle next dec => exact absurd (issues_of_nextTurn turn idle next dec) notFlush
    | drain busy | accept busy | reject busy | giveUpFlushed busy | giveUp busy | timeout busy | failTx _ busy
    | failRx _ busy => exact absurd ⟨by rw [show s.phase = _ from busy]; nofun, rfl⟩ goesOn
    | _ => rfl
  · rfl

theorem rvalid_of_step : (s.Issues .frmRecv ∨ s.Issues .frmRsync → t.rvalid = false) ∧
    (s.phase = .rx → t.phase = .idle → t.status = .ok → t.rvalid = true) ∧
    (¬ s.Issues .frmRecv → ¬ s.Issues .frmRsync → ¬ (s.phase = .rx ∧ t.phase = .idle ∧ t.status = .ok) →
      t.rvalid = s.rvalid) := by
  refine ⟨?_, fun rx idle ok => ?_, fun notRecv notRsync notOk => ?_⟩
  · rintro (issues | issues)
    all_goals
      obtain ⟨more, exec⟩ := exec_of_issues run issues
      obtain ⟨-, rfl⟩ := whenIdle_eq_next.1 exec
      rfl
  · rcases move_of_step run with ⟨n, turn, move⟩ | ⟨-, rfl⟩
    · cases move with
      | accept => rfl
      | reject _ _ bad | giveUpFlushed _ _ bad | giveUp _ _ bad => exact absurd ok (failsWith_iff.1 bad).2
      | drain tx => cases rx.symm.trans tx
      | timeout | failTx | failRx => cases ok
      | frmSend | frmRecv | frmRsync => cases idle
      | _ => cases rx.symm.trans idle
    · cases rx.symm.trans idle
  · rcases move_of_step run with ⟨n, turn, move⟩ | ⟨-, rfl⟩
    · cases move with
      | frmRecv idle next dec => exact absurd (issues_of_nextTurn turn idle next dec) notRecv
      | frmRsync idle next dec => exact absurd (issues_of_nextTurn turn idle next dec) notRsync
      | accept rx => exact absurd ⟨rx, rfl, rfl⟩ notOk
      | _ => rfl
    · rfl

theorem att_of_step : (s.Issues .frmRsync → t.att = 0) ∧ (s.CountsFailure → t.att = s.att + 1) ∧
    (¬ s.Issues .frmRsync → ¬ s.CountsFailure → t.att = s.att) := by
  refine ⟨fun issues => ?_, ?_, fun notRsync notCount => ?_⟩
  · obtain ⟨more, exec⟩ := exec_of_issues run issues
    obtain ⟨-, rfl⟩ := whenIdle_eq_next.1 exec
    rfl
  · rintro ⟨turn, rx, full, op, bad⟩
    rw [step_of_nextTurn turn] at run
    have fails := framerStep_of_rejected_rsync (s := { s with sched := s.sched.tail }) rx full
      (failsWith_iff.2 ⟨rfl, bad⟩) op
    cases fails.symm.trans (ifEnabled_eq_next.1 run)
    exact attemptFailed_att ..
  · rcases move_of_step run with ⟨n, turn, move⟩ | ⟨-, rfl⟩
    · cases move with
      | frmRsync idle next dec => exact absurd (issues_of_nextTurn turn idle next dec) notRsync
      | giveUpFlushed rx full bad op | giveUp rx full bad op | retry rx full bad op =>
        obtain ⟨rfl, notOk⟩ := failsWith_iff.1 bad
        exact absurd ⟨turn, rx, full, op, notOk⟩ notCount
      | _ => rfl
    · rfl

end

/-- Settles O55, register by register. -/
theorem controlRegistersAreWrittenAsListed : Obligations.ControlRegistersAreWrittenAsListed := by
  intro s t run
  simp only [State.busy_eq_true, State.busy_eq_false]
  obtain ⟨flush, kept⟩ := status_of_step run
  exact ⟨op_of_step run, ⟨flush, completesWith_of_step run, kept⟩, rvalid_of_step run, att_of_step run⟩

end Sys2Proof.Machine
end

section
/-!
PROOFS. Single steps and single operations (42_link_operations.md R95 to R107; 20_memory.md R37; 30_encoding.md R54): what
each of them writes, and that nothing else changes.
-/

namespace Sys2Proof.Machine

/-! ## Issue -/

/-- Settles O18: every operation is accepted through `whenIdle`; three of them leave `PHASE` at `TX` or `RX`, the other four
respond. -/
theorem operationsAreAcceptedWhenIdle : Obligations.OperationsAreAcceptedWhenIdle := by
  intro i s notFrame notRsp
  simp only [State.busy_eq_true, State.busy_eq_false]
  cases i with
  | frame => exact (notFrame _ _ _ _ _ rfl).elim
  | rsp => exact (notRsp _ _ _ _ rfl).elim
  | crcInit | crcUpd | crcGet | frmFlush =>
    refine ⟨fun busy => whenIdle_of_busy busy _, fun idle => ⟨_, whenIdle_of_idle idle _, by simp, fun _ => ?_⟩⟩
    exact ⟨idle, _, State.responses_respond ..⟩
  | frmSend | frmRecv | frmRsync =>
    refine ⟨fun busy => whenIdle_of_busy busy _, fun idle => ⟨_, whenIdle_of_idle idle _, fun _ => ?_, by simp⟩⟩
    exact ⟨nofun, rfl⟩

/-- Settles O19: the issue steps on an idle block, which accepts them. -/
theorem linkOperationsIssue : Obligations.LinkOperationsIssue := by
  refine ⟨fun t p s idle => ?_, fun s idle => ?_, fun s idle => ?_⟩
  all_goals exact whenIdle_of_idle ((State.busy_eq_false s).1 idle) _

/-! ## Steps of the sequencer -/

/-- A turn of `Framer` that no move describes is not enabled. -/
theorem takeTurn_framer_of_no_move {s : State} (noMove : ∀ t, ¬ Move .framer s t) :
    takeTurn .framer s = .refused .notEnabled := by
  have disabled : s.framerStep = none :=
    Option.eq_none_iff_forall_ne_some.2 fun t answers => noMove t (framerStep_move answers)
  rw [takeTurn, disabled, ifEnabled]

/-- Settles O21: `put` and `drain` are the two moves of `Framer` in `TX`, and a full stream allows neither. -/
theorem sendPutsBytesThenDrains : Obligations.SendPutsBytesThenDrains := by
  refine ⟨fun s short tx => takeTurn_of_move (.put tx short),
    fun s tx full drained => ⟨_, _, takeTurn_of_move (.drain tx full drained)⟩,
    fun s tx full waiting => takeTurn_framer_of_no_move fun t move => ?_⟩
  cases move with
  | put _ short => exact short.ne full
  | drain _ _ drained => exact waiting drained
  | take rx | accept rx | reject rx | giveUpFlushed rx | giveUp rx | retry rx => cases tx.symm.trans rx

/-- Settles O22: the move of a failed send; a kept part is what its own length keeps. -/
theorem sendFailureKeepsAPrefix : Obligations.SendFailureKeepsAPrefix := by
  refine ⟨fun s keep tx => ⟨_, _, takeTurn_of_move (.failTx keep tx)⟩, fun s kept starts => ⟨kept.length, ?_⟩⟩
  exact (List.prefix_iff_eq_take.1 starts).symm

/-- Settles O23: `take` is the one move of `Framer` while the window is not full, and it needs a byte. -/
theorem takeMovesTheOldestByte : Obligations.TakeMovesTheOldestByte := by
  refine ⟨fun s short b rest rx head => ⟨_, takeTurn_of_move (.take rx short head), ?_, fun i other => ?_, rfl⟩,
    fun s rx short empty => takeTurn_framer_of_no_move fun t move => ?_⟩
  · exact readByte_writeByte_same ..
  · exact readByte_writeByte_other _ _ (Fin.ne_of_val_ne other)
  · cases move with
    | put tx | drain tx => cases rx.symm.trans tx
    | take _ _ head => cases empty.symm.trans head
    | accept _ full | reject _ full | giveUpFlushed _ full | giveUp _ full | retry _ full => exact short.ne full

/-- Settles O26, by the move of an accepted window. -/
theorem checkReportsAnAcceptedFrame : Obligations.CheckReportsAnAcceptedFrame :=
  fun _ _ _ rx full op good => takeTurn_of_move (.accept rx full good op)

/-- Settles O27: the four moves of a check whose window does not decode, by operation, bound and `FLUSH_ON_FINAL`. -/
theorem checkHandlesABadWindow : Obligations.CheckHandlesABadWindow := by
  intro s r rx full bad
  refine ⟨fun op => ?_, fun op more => takeTurn_of_move (.retry rx full bad op more), fun op last => ?_⟩
  · rw [← op]
    exact ⟨_, _, takeTurn_of_move (.reject rx full bad op)⟩
  · rw [← op]
    cases fof : s.params.flushOnFinal
    case true => exact ⟨_, _, takeTurn_of_move (.giveUpFlushed rx full bad op last fof)⟩
    case false => exact ⟨_, _, takeTurn_of_move (.giveUp rx full bad op last fof)⟩

/-- Settles O28: a full window leaves `timeout` and `fail` without a move, and one that is not full leaves `take` only. -/
theorem timeoutAndDecodeNeverCompete : Obligations.TimeoutAndDecodeNeverCompete := by
  refine fun s rx => ⟨fun full => ⟨?_, fun keep => ?_⟩, fun short t run => ?_⟩
  · refine takeTurn_link_of_no_move fun t move => ?_
    cases move with
    | timeout _ short => exact short.ne full
  · refine takeTurn_link_of_no_move fun t move => ?_
    cases move with
    | failTx _ tx => cases rx.symm.trans tx
    | failRx _ _ short => exact short.ne full
  · rw [step_scheduled] at run
    cases takeTurn_move run with
    | take => exact ⟨rx, rfl, rfl⟩
    | put tx | drain tx => cases rx.symm.trans tx
    | accept _ full | reject _ full | giveUpFlushed _ full | giveUp _ full | retry _ full =>
      exact absurd full short.ne

/-- Settles O29: `deliver` needs nothing, `wireOut` the head it moves. -/
theorem linkMovesBytes : Obligations.LinkMovesBytes := by
  refine ⟨fun s b => takeTurn_of_move (.deliver b), fun s b rest head => takeTurn_of_move (.wireOut head),
    fun s empty => takeTurn_link_of_no_move fun t move => ?_⟩
  cases move with
  | wireOut head => cases empty.symm.trans head

/-! ## Runs -/

theorem run_succ_of_step {s t : State} (answers : step s = .next t) (k : Nat) : core.run (k + 1) s = core.run k t := by
  have answers : Host.Core.step core s = .next t := answers
  simp only [Host.Core.run, answers]

theorem run_add_of_run {s t : State} {m : Nat} (run : core.run m s = .next t) (k : Nat) :
    core.run (m + k) s = core.run k t := by
  induction m generalizing s with
  | zero =>
    cases run
    rw [Nat.zero_add]
  | succ m ih =>
    rw [Nat.add_right_comm]
    cases answers : step s with
    | next u =>
      rw [run_succ_of_step answers] at run ⊢
      exact ih run
    | fault r => cases r
    | refused r =>
      have answers : Host.Core.step core s = .refused r := answers
      simp only [Host.Core.run, answers] at run
      cases run

/-- Settles O36: a state with no turn stays as it is at each step. -/
theorem idleBlockSurvivesIdling : Obligations.IdleBlockSurvivesIdling := by
  intro s n notBusy program sched
  have idle := (State.busy_eq_false s).1 notBusy
  have noTurn : s.nextTurn = none := by
    simp [State.nextTurn, State.defaultTurn, State.framerStep, sched, idle, program]
  induction n with
  | zero => rfl
  | succ n ih => rw [run_succ_of_step (step_of_no_turn noTurn), ih]

/-- Scheduled deliveries bring their bytes in order. -/
theorem run_deliveries (bs : List Byte) (s : State) :
    core.run bs.length { s with sched := (bs.map fun b => .link (.deliver b)) ++ s.sched } =
      .next { s with rxq := s.rxq ++ bs } := by
  induction bs generalizing s with
  | nil => rw [List.append_nil]; rfl
  | cons b bs ih =>
    have first := (step_scheduled _ _).trans
      (takeTurn_of_move (.deliver (s := { s with sched := (bs.map fun b => .link (.deliver b)) ++ s.sched }) b))
    refine (run_succ_of_step first bs.length).trans ((ih { s with rxq := s.rxq ++ [b] }).trans ?_)
    rw [List.append_assoc]
    rfl

/-! ## Ports -/

/-- Settles O30: the meaning of a frame word is the delivery of its bytes, and so are twelve `deliver` turns. -/
theorem frameArrivesAsTwelveDeliveries : Obligations.FrameArrivesAsTwelveDeliveries :=
  fun sof t p chk eof s => ⟨rfl, run_deliveries (frameBytes sof t p chk eof).toList s⟩

/-- Settles O31: the meaning of a response word asks for that word at the head of the queue. -/
theorem responseIsTakenByHost : Obligations.ResponseIsTakenByHost := by
  refine ⟨fun op st a d s rest head => ?_, fun op st a d s other => ?_⟩
  · exact execRsp_eq_next.2 ⟨by rw [head]; rfl, State.takeResponse_eq_some.2 ⟨_, _, head, rfl⟩⟩
  · simp only [exec, execRsp, if_neg other]
    cases s.takeResponse <;> rfl

theorem setWidth_ofBool (b : Bool) : (BitVec.ofBool b).setWidth 64 = if b then 1 else 0 := by
  cases b <;> rfl

/-- Settles O32: a read is one move of `Host`; the value it logs is the register's, and a busy block answers `BUSY` only. -/
theorem hostReadsRegisters : Obligations.HostReadsRegisters := by
  refine ⟨fun s r may => ⟨s.hostValue r, ?_, ?_⟩, fun s r notBusy busy => if_pos ⟨notBusy, busy⟩⟩
  · exact takeTurn_of_move (.read r (may.imp_right (State.busy_eq_false s).1))
  · cases r with
    | typeRx => exact fun valid => by rw [State.hostValue, if_pos valid]
    | payloadRx => exact fun valid => by rw [State.hostValue, if_pos valid]
    | att | status => rfl
    | rvalid | busy => exact setWidth_ofBool _

/-! ## The decoded instruction -/

theorem issueNext_of_decode {s : State} {w : CmdWord} {more : List CmdWord} {i : Instr} (next : s.program = w :: more)
    (dec : decodeCmd w = .ok i) : issueNext s = exec i { s with program := more } := by
  simp only [issueNext, next, dec]

/-- A turn in which `Host` takes the oldest response is the meaning of that response's word (log entry 14). -/
theorem takeTurn_response_of_head {s : State} {r : Response} {rest : List Response} (head : s.rspq = r :: rest) :
    takeTurn .response s = exec (.rsp r.op r.status r.a r.d) s := by
  have taken := takeTurn_of_move (.response head)
  exact taken.trans (execRsp_eq_next.2 ⟨by rw [head]; rfl, ifEnabled_eq_next.1 taken⟩).symm

/-- Settles O33: each turn with a word runs what the word decodes to; an idle block's default turn is `Host`'s. -/
theorem stepRunsTheDecodedInstruction : Obligations.StepRunsTheDecodedInstruction := by
  refine ⟨fun s w more i next dec => issueNext_of_decode next dec, fun s w more i next dec sched notBusy => ?_,
    fun s w => rfl, fun s r rest head => takeTurn_response_of_head head⟩
  have idle := (State.busy_eq_false s).1 notBusy
  have default : s.defaultTurn = some .host := by simp [State.defaultTurn, State.framerStep, idle, next]
  rw [step_of_nextTurn (nextTurn_eq_some.2 (.inr ⟨sched, default⟩))]
  refine (issueNext_of_decode (s := { s with sched := s.sched.tail }) next dec).trans ?_
  rw [sched]
  rfl

/-- A word of the table decodes to what the decoder of one of the three ports reads (log entry 15). -/
theorem decodeTableWord_cases {nbits w : Nat} {i : Instr} (dec : decodeTableWord nbits w = some i) :
    decodeCmd (BitVec.ofNat 76 w) = .ok i ∨ decodeRsp (BitVec.ofNat 79 w) = .ok i ∨
      i = decodeFrameWord (BitVec.ofNat 96 w) := by
  unfold decodeTableWord at dec
  split at dec <;> cases dec
  rename_i read
  unfold decodeWord at read
  split at read
  · exact .inl read
  · exact .inr (.inl read)
  · split at read
    · exact .inl read
    · exact .inr (.inl read)
  · exact .inr (.inr (Except.ok.inj read).symm)
  · cases read

theorem decodeRsp_cases {w : RspWord} {i : Instr} (dec : decodeRsp w = .ok i) :
    i = .rsp (rspOp w) (rspStatus w) (rspA w) (rspD w) := by
  unfold decodeRsp at dec
  split at dec
  · cases dec
  · split at dec <;> cases dec
    rfl

/-- A word at the command port is issued by the very next step (log entry 16). -/
theorem step_placed_cmd {s : State} {w : CmdWord} {i : Instr} (dec : decodeCmd w = .ok i) :
    step { s with program := w :: s.program, sched := .host :: s.sched } = exec i s :=
  issueNext_of_decode (s := { s with program := w :: s.program }) rfl dec

/-- Settles O34: the word goes to the port whose decoder reads it, and that port's turn is next. -/
theorem fetchedWordRunsNext : Obligations.FetchedWordRunsNext := by
  intro s nbits w i dec
  unfold State.withFetchWord placeWord
  rw [dec]
  rcases decodeTableWord_cases dec with cmd | rsp | rfl
  · rcases decodeCmd_cases cmd with rfl | ⟨_, rfl⟩ | rfl | ⟨_, _, rfl⟩ | rfl | rfl | rfl
    all_goals exact step_placed_cmd cmd
  · cases decodeRsp_cases rsp
    exact takeTurn_response_of_head (s := { s with rspq := ⟨_, _, _, _⟩ :: s.rspq }) rfl
  · rfl

end Sys2Proof.Machine
end

section
/-!
PROOFS. The checksum of whole messages: its check value (40_crc8.md R66, R67) and the pseudo-operation
`CRC.BLK` (30_encoding.md R60).
-/

namespace Sys2Proof.Machine

/-- Settles O5: each value is computed. -/
theorem checksumCheckValue : Obligations.ChecksumCheckValue := by
  unfold Obligations.ChecksumCheckValue
  decide +kernel

/-! ## `CRC.BLK` -/

theorem step_scheduled_host {s : State} {w : CmdWord} {more : List CmdWord} {later : List Turn} {i : Instr}
    (next : s.program = w :: more) (sched : s.sched = .host :: later) (dec : decodeCmd w = .ok i) :
    step s = exec i { s with program := more, sched := later } := by
  rw [step_of_nextTurn (nextTurn_eq_some.2 (.inl (by rw [sched]; rfl))), sched]
  exact issueNext_of_decode (s := { s with sched := later }) next dec

/-- `t` is `s` after scheduled CRC commands: `c` is left in `CRC`, `sent` is what they answered, and these commands and turns
are still to come. -/
structure AfterCrcCommands (s t : State) (c : Byte) (sent : List Response) (more : List CmdWord) (later : List Turn) :
    Prop where
  phase : t.phase = .idle
  crc : t.crc = c
  rspq : t.rspq = s.rspq ++ sent
  program : t.program = more
  sched : t.sched = later

section
variable {s : State} {more : List CmdWord} {later : List Turn} {a : Byte} {d : Payload} (idle : s.phase = .idle)
  (sched : s.sched = .host :: later)
include idle sched

theorem step_crcInit (next : s.program = cmdWord 0x1 a d :: more) :
    ∃ t r, step s = .next t ∧ AfterCrcCommands s t crcInitValue [r] more later :=
  ⟨_, _, (step_scheduled_host next sched (decodeCmd_crcInit a d)).trans (whenIdle_of_idle idle _),
    idle, rfl, rfl, rfl, rfl⟩

theorem step_crcUpd (next : s.program = cmdWord 0x2 a d :: more) :
    ∃ t r, step s = .next t ∧ AfterCrcCommands s t (crcStep s.crc a) [r] more later :=
  ⟨_, _, (step_scheduled_host next sched (decodeCmd_crcUpd a d)).trans (whenIdle_of_idle idle _),
    idle, rfl, rfl, rfl, rfl⟩

theorem step_crcGet (next : s.program = cmdWord 0x3 a d :: more) :
    ∃ t x, step s = .next t ∧ AfterCrcCommands s t s.crc [⟨0x3, 0, s.crc ^^^ crcXorOut, x⟩] more later :=
  ⟨_, _, (step_scheduled_host next sched (decodeCmd_crcGet a d)).trans (whenIdle_of_idle idle _),
    idle, rfl, rfl, rfl, rfl⟩

end

/-- One scheduled `CRC.UPD` for each byte: the register runs through the bytes and each command is answered once (R70). -/
theorem run_crcUpds {m : List (Byte × Payload)} {more : List CmdWord} {later : List Turn} {s : State}
    (idle : s.phase = .idle) (next : s.program = (m.map fun x => cmdWord 0x2 x.1 x.2) ++ more)
    (sched : s.sched = List.replicate m.length .host ++ later) :
    ∃ t sent, core.run m.length s = .next t ∧ AfterCrcCommands s t (crcFrom s.crc (m.map Prod.fst)) sent more later ∧
      sent.length = m.length := by
  induction m generalizing s with
  | nil => exact ⟨s, [], rfl, ⟨idle, rfl, (List.append_nil _).symm, next, sched⟩, rfl⟩
  | cons x m ih =>
    obtain ⟨u, r, first, idle, crc, rspq, program, turns⟩ := step_crcUpd idle sched next
    obtain ⟨t, sent, run, after, len⟩ := ih idle program turns
    refine ⟨t, r :: sent, (run_succ_of_step first _).trans run, ?_, congrArg Nat.succ len⟩
    refine ⟨after.phase, ?_, ?_, after.program, after.sched⟩
    · rw [after.crc, crc, List.map_cons, crcFrom_cons]
    · rw [after.rspq, rspq, List.append_assoc, List.singleton_append]

/-- Settles O4: `CRC.INIT`, the bytes, and `CRC.GET`, which reports what they left. -/
theorem crcBlkReturnsTheChecksumOfItsBytes : Obligations.CrcBlkReturnsTheChecksumOfItsBytes := by
  intro s m a0 a1 d0 d1 more later notBusy next sched
  have turns : s.sched = .host :: (List.replicate m.length .host ++ .host :: later) := by
    rw [sched, List.replicate_succ, List.replicate_succ', List.cons_append, List.append_assoc, List.singleton_append]
  obtain ⟨u, r, init, idle, crcInit, rspqInit, program, turns⟩ :=
    step_crcInit ((State.busy_eq_false s).1 notBusy) turns next
  obtain ⟨v, sent, run, ⟨idle, crcUpd, rspqUpd, program, turns⟩, len⟩ := run_crcUpds idle program turns
  obtain ⟨t, d, get, idle, crcGet, rspqGet, program, turns⟩ := step_crcGet idle turns program
  have raw : v.crc = crcRaw (m.map Prod.fst) := by rw [crcUpd, crcInit, crcRaw]
  refine ⟨t, r :: sent, d, ?_, crcGet.trans raw, ?_, congrArg Nat.succ len, program, turns,
    (State.busy_eq_false t).2 idle⟩
  · rw [run_succ_of_step init, run_add_of_run run]
    exact run_succ_of_step get 0
  · rw [rspqGet, rspqUpd, rspqInit, raw, crc8, List.append_assoc s.rspq, List.singleton_append]

end Sys2Proof.Machine
end

section
/-!
PROOFS. Errors in the ten bytes a receiver checks (40_crc8.md R74): one bit, two bits, and bursts of up to eight bits.
-/

namespace Sys2Proof.Machine

/-! ## A damaged window, byte by byte -/

theorem readByte_damageBody (f : Buffer) (e : BitVec 80) (k : Fin frameLen) : readByte (damageBody f e) k =
    readByte f k ^^^ if 1 ≤ k.val ∧ k.val ≤ 10 then e.extractLsb' (80 - 8 * k.val) 8 else 0 := by
  unfold damageBody
  split_ifs with body
  · simp [readByte, body]
  · simp [readByte, body]

/-- Errors on top of each other are one error. -/
theorem damageBody_xor (f : Buffer) (e e' : BitVec 80) :
    damageBody f (e ^^^ e') = damageBody (damageBody f e) e' := by
  refine buffer_ext fun k => ?_
  simp only [readByte_damageBody, BitVec.xor_assoc]
  split_ifs
  · rw [BitVec.extractLsb'_xor]
  · rfl

theorem damageBody_zero (f : Buffer) : damageBody f 0 = f := by
  refine buffer_ext fun k => ?_
  rw [readByte_damageBody]
  split_ifs <;> simp

theorem hasMarkers_damageBody {c : Params} {f : Buffer} (markers : HasMarkers c f) (e : BitVec 80) :
    HasMarkers c (damageBody f e) := by
  simpa [HasMarkers, readByte_damageBody] using markers

/-! ## One changed bit -/

/-- The byte a bit of the error pattern stands in: the last eight bits are byte 10, the first eight byte 1. -/
def errorByte (i : Fin 80) : Fin frameLen := ⟨10 - i.val / 8, by have : frameLen = 12 := rfl; omega⟩

/-- Its place in that byte. -/
def errorBit (i : Fin 80) : Fin 8 := ⟨i.val % 8, Nat.mod_lt _ (by decide)⟩

theorem errorByte_body (i : Fin 80) : ¬ (errorByte i = 0 ∨ errorByte i = 11) := by
  revert i
  decide

theorem errorPlace_injective {i j : Fin 80} (ne : i ≠ j) : (errorByte i, errorBit i) ≠ (errorByte j, errorBit j) := by
  unfold errorByte errorBit
  rw [Ne, Prod.mk.injEq, Fin.mk.injEq, Fin.mk.injEq]
  omega

theorem damageBody_twoPow (f : Buffer) (i : Fin 80) :
    damageBody f (BitVec.twoPow 80 i) = flipBit f (errorByte i) (errorBit i) := by
  refine buffer_ext fun k => ?_
  rw [readByte_damageBody, readByte_flipBit]
  congr 1
  have place : k = errorByte i ↔ k.val = 10 - i.val / 8 := Fin.ext_iff
  refine BitVec.eq_of_getLsbD_eq fun j hj => ?_
  split_ifs with body here here
  · have same : i.val = 80 - 8 * k.val + j ↔ i.val % 8 = j := by omega
    simp [BitVec.getLsbD_twoPow, hj, errorBit, same]
    exact eq_comm
  · have other : i.val ≠ 80 - 8 * k.val + j := by omega
    simp [BitVec.getLsbD_twoPow, hj, other]
  · exact absurd (here ▸ body_bounds (errorByte_body i)) body
  · rfl

theorem crcRaw_damageBody_twoPow (f : Buffer) (i : Fin 80) :
    crcRaw (checkedBytes (damageBody f (BitVec.twoPow 80 i))) = crcRaw (checkedBytes f) ^^^ crcShifts (8 + i) 1 := by
  have turns : turnsToEnd (errorByte i) (errorBit i) = 8 + i := by
    unfold turnsToEnd errorByte errorBit
    simp only
    omega
  rw [damageBody_twoPow, crcRaw_checkedBytes_flipBit _ _ (errorByte_body i), turns]

/-! ## Bursts -/

/-- What holds of no bit and of every single bit, and of the exclusive or of two bytes with it, holds of every byte. -/
theorem byte_xor_induction {P : Byte → Prop} (zero : P 0) (bit : ∀ j : Fin 8, P (BitVec.twoPow 8 j))
    (xor : ∀ a b, P a → P b → P (a ^^^ b)) (b : Byte) : P b := by
  have sum : b = ((List.finRange 8).filter fun j : Fin 8 => b.getLsbD j).foldr (fun j x => BitVec.twoPow 8 j ^^^ x) 0 := by
    revert b
    decide
  rw [sum]
  induction (List.finRange 8).filter fun j : Fin 8 => b.getLsbD j with
  | nil => exact zero
  | cons j js ih => exact xor _ _ (bit j) ih

/-- A burst changes the register as one byte that far from the end does. -/
theorem crcRaw_damageBody_burst (f : Buffer) (k : Fin 73) (b : Byte) :
    crcRaw (checkedBytes (damageBody f (b.setWidth 80 <<< k.val))) =
      crcRaw (checkedBytes f) ^^^ crcShifts (8 + k) b := by
  induction b using byte_xor_induction generalizing f with
  | zero =>
    rw [show (0 : Byte).setWidth 80 <<< k.val = 0 by simp, damageBody_zero, crcShifts_zero_byte]
    exact BitVec.xor_zero.symm
  | bit j =>
    have moved : (BitVec.twoPow 8 j).setWidth 80 <<< k.val = BitVec.twoPow 80 (k + j) := by
      refine BitVec.eq_of_getLsbD_eq fun m hm => Bool.eq_iff_iff.2 ?_
      simp [BitVec.getLsbD_twoPow]
      omega
    have turns : 8 + (k.val + j.val) = j + (8 + k) := by omega
    rw [moved, crcRaw_damageBody_twoPow f ⟨k + j, by omega⟩, twoPow_eq_crcShifts, ← crcShifts_add, ← turns]
  | xor a b iha ihb =>
    rw [BitVec.setWidth_xor, BitVec.shiftLeft_xor_distrib, damageBody_xor, ihb, iha, BitVec.xor_assoc, crcShifts_xor]

/-- Settles O8: one or two bits of the pattern are flipped bits of the frame, which O13's lemmas judge; a burst changes the
residue by turns on a byte that is not zero. -/
theorem checksumDetectsSmallErrors : Obligations.ChecksumDetectsSmallErrors := by
  refine fun c t p => ⟨fun i => ?_, fun i j ne => ?_, fun b k notZero => ?_⟩
  · rw [damageBody_twoPow, decodeFrame_flipBit, if_neg (errorByte_body i)]
  · rw [damageBody_xor, damageBody_twoPow, damageBody_twoPow, decodeFrame_flipBit_flipBit _ _ _ (errorPlace_injective ne)]
    exact if_neg fun marker => (or_assoc.2 marker).elim (errorByte_body i) (errorByte_body j)
  · refine decodeFrame_of_not_residue (hasMarkers_damageBody (hasMarkers_encodeFrame c t p) _) ?_
    rw [crcRaw_damageBody_burst, crcRaw_checkedBytes_encodeFrame, Ne, xor_left_eq_self_iff]
    exact fun zero => notZero (crcShifts_injective _ (zero.trans (crcShifts_zero_byte _).symm))

end Sys2Proof.Machine
end

section
/-!
PROOFS. Runs under the default turns (42_link_operations.md R109, R110; log entry 6): the budget of `Framer` falls with each
of its steps, so an operation in progress completes, and a program runs to its end.
-/

namespace Sys2Proof.Machine

/-! ## The budget of `Framer` -/

section
variable {s t : State}

theorem State.framerBudget_of_idle (idle : s.phase = .idle) : s.framerBudget = 0 := by
  rw [State.framerBudget, idle]

theorem State.framerBudget_of_tx (tx : s.phase = .tx) : s.framerBudget = frameLen - s.txi.toNat + 1 := by
  rw [State.framerBudget, tx]

/-- What the attempts of `FRM.RSYNC` after the present one can cost. -/
def State.laterAttempts (s : State) : Nat :=
  if s.op = opFrmRsync then (s.params.maxAttempts.toNat - s.att.toNat - 1) * (frameLen + 1) else 0

theorem State.framerBudget_of_rx (rx : s.phase = .rx) :
    s.framerBudget = s.laterAttempts + (frameLen - s.rxc.toNat) + 1 := by
  rw [State.framerBudget, rx, State.laterAttempts]

theorem State.framerBudget_pos (busy : s.phase ≠ .idle) : 0 < s.framerBudget := by
  cases phase : s.phase with
  | idle => exact absurd phase busy
  | tx => rw [State.framerBudget_of_tx phase]; exact Nat.succ_pos _
  | rx => rw [State.framerBudget_of_rx phase]; exact Nat.succ_pos _

/-- One attempt less is to come after a failed one that is not the last. -/
theorem laterAttempts_retry (legal : s.Inv) (rx : s.phase = .rx) (op : s.op = opFrmRsync)
    (more : (s.att + 1).toNat ≠ s.params.maxAttempts.toNat) :
    s.laterAttempts = State.laterAttempts { s with att := s.att + 1, rxq := [], rxc := 0 } + (frameLen + 1) := by
  have left := legal.att_lt rx op
  have counted := toNat_att_add_one left
  have attempts : s.params.maxAttempts.toNat - s.att.toNat - 1 =
      s.params.maxAttempts.toNat - (s.att + 1).toNat - 1 + 1 := by omega
  simp only [State.laterAttempts, if_pos op, attempts, Nat.succ_mul]

theorem Move.framerBudget_lt (legal : s.Inv) (move : Move .framer s t) : t.framerBudget < s.framerBudget := by
  cases move with
  | put tx short =>
    calc _ = frameLen - (s.txi + 1).toNat + 1 := State.framerBudget_of_tx (by exact tx)
      _ < s.framerBudget := by rw [State.framerBudget_of_tx tx, toNat_add_one_of_lt short]; omega
  | take rx short head =>
    calc _ = s.laterAttempts + (frameLen - (s.rxc + 1).toNat) + 1 := State.framerBudget_of_rx (by exact rx)
      _ < s.framerBudget := by rw [State.framerBudget_of_rx rx, toNat_add_one_of_lt short]; omega
  | retry rx full bad op more =>
    calc _ = _ + frameLen + 1 := State.framerBudget_of_rx (by exact rx)
      _ < s.framerBudget := by
        rw [State.framerBudget_of_rx rx, laterAttempts_retry legal rx op more, full]
        exact Nat.lt_succ_self _
  | drain busy | accept busy | reject busy | giveUpFlushed busy | giveUp busy =>
    calc _ = 0 := State.framerBudget_of_idle rfl
      _ < s.framerBudget := State.framerBudget_pos (by rw [busy]; nofun)

/-- Settles O44. -/
theorem framerStepsAreBounded : Obligations.FramerStepsAreBounded :=
  fun _ _ legal answers => (framerStep_move answers).framerBudget_lt legal

end

/-! ## Default turns -/

section
variable {s t : State}

theorem step_of_default {n : Turn} (move : Move n s t) (turn : s.defaultTurn = some n) (empty : s.sched = []) :
    step s = .next t := by
  simp only [step, stepOnce, empty, turn]
  exact takeTurn_of_move move

/-- A step of `Framer` comes before anything else (F-a). -/
theorem step_of_framer_move (move : Move .framer s t) (empty : s.sched = []) : step s = .next t :=
  step_of_default move (if_pos (framerStep_isSome_iff.2 ⟨t, move⟩)) empty

end

section
variable {s t : State}

theorem defaultTurn_eq_wireOut (tx : s.phase = .tx) (full : s.txi.toNat = frameLen) (waiting : s.txq ≠ []) :
    s.defaultTurn = some (.link .wireOut) := by
  have noFramer : ¬ s.framerStep.isSome = true := by
    rw [framerStep_eq_drain tx full, Option.isSome_iff_exists]
    rintro ⟨t, drained⟩
    exact waiting (drain_eq_some.1 drained).2.1
  rw [State.defaultTurn, if_neg noFramer, tx]
  exact if_neg fun drained => waiting ((State.txDrained_eq_true s).1 drained)

theorem defaultTurn_eq_timeout (rx : s.phase = .rx) (short : s.rxc.toNat < frameLen) (starved : s.rxq = []) :
    s.defaultTurn = some (.link .timeout) := by
  have noFramer : ¬ s.framerStep.isSome = true := by
    rw [framerStep_eq_take rx short, Option.isSome_iff_exists]
    rintro ⟨t, taken⟩
    obtain ⟨-, b, rest, head, -⟩ := take_eq_some.1 taken
    cases starved.symm.trans head
  rw [State.defaultTurn, if_neg noFramer, rx]
  exact if_pos (linkTimeout_isSome_iff.2 ⟨_, .timeout rx short starved⟩)

theorem defaultTurn_eq_host (idle : s.phase = .idle) (more : s.program ≠ []) : s.defaultTurn = some .host := by
  have noFramer : ¬ s.framerStep.isSome = true := by rw [State.framerStep, idle]; nofun
  rw [State.defaultTurn, if_neg noFramer, idle]
  exact if_neg fun none => more (List.isEmpty_iff.1 none)

/-- A full window is always checked (R104). -/
theorem exists_check_move (legal : s.Inv) (rx : s.phase = .rx) (full : s.rxc.toNat = frameLen) :
    ∃ t, Move .framer s t := by
  by_cases good : (decodeFrame s.params s.rxbuf).outcome = .ok
  · obtain ⟨ty, p, accepted⟩ := outcome_eq_ok_iff.1 good
    exact ⟨_, .accept rx full accepted (legal.op_of_rx rx)⟩
  · have bad := failsWith_iff.2 ⟨rfl, good⟩
    rcases legal.op_of_rx rx with op | op
    · exact ⟨_, .reject rx full bad op⟩
    · exact ⟨_, framerStep_move (framerStep_of_rejected_rsync rx full bad op)⟩

/-- The turns that fairness promises a busy block: `Framer`'s, and two of `Link` (R109). -/
def IsDefaultTurn (n : Turn) (s : State) : Prop :=
  n = .framer ∨ (n = .link .wireOut ∧ s.phase = .tx) ∨ n = .link .timeout

/-- In a legal busy state one of them is enabled, and the next step takes it where no schedule is laid down. -/
theorem exists_default_move (legal : s.Inv) (empty : s.sched = []) (busy : s.phase ≠ .idle) :
    ∃ n t, IsDefaultTurn n s ∧ Move n s t ∧ step s = .next t := by
  obtain ⟨txi, rxc, -⟩ := legal.inRange
  cases phase : s.phase with
  | idle => exact absurd phase busy
  | tx =>
    rcases txi.lt_or_eq with short | full
    · exact ⟨_, _, .inl rfl, .put phase short, step_of_framer_move (.put phase short) empty⟩
    by_cases drained : s.txq = []
    · exact ⟨_, _, .inl rfl, .drain phase full drained, step_of_framer_move (.drain phase full drained) empty⟩
    · obtain ⟨b, rest, head⟩ := List.exists_cons_of_ne_nil drained
      exact ⟨_, _, .inr (.inl ⟨rfl, phase⟩), .wireOut head,
        step_of_default (.wireOut head) (defaultTurn_eq_wireOut phase full drained) empty⟩
  | rx =>
    rcases rxc.lt_or_eq with short | full
    · cases head : s.rxq with
      | cons b rest => exact ⟨_, _, .inl rfl, .take phase short head, step_of_framer_move (.take phase short head) empty⟩
      | nil =>
        exact ⟨_, _, .inr (.inr rfl), .timeout phase short head,
          step_of_default (.timeout phase short head) (defaultTurn_eq_timeout phase short head) empty⟩
    · obtain ⟨t, move⟩ := exists_check_move legal phase full
      exact ⟨_, t, .inl rfl, move, step_of_framer_move move empty⟩

/-! ## An operation in progress completes -/

/-- A bound on the default turns to the completion of the operation in progress: `Framer`'s steps, and the bytes of a send
that wait or are still to be handed over. -/
def State.turnsLeft (s : State) : Nat :=
  s.framerBudget + if s.phase = .tx then s.txq.length + (frameLen - s.txi.toNat) else 0

theorem turnsLeft_le (s : State) : s.turnsLeft ≤ s.framerBudget + s.txq.length + 12 := by
  have : frameLen = 12 := rfl
  unfold State.turnsLeft
  split <;> omega

theorem turnsLeft_of_tx (tx : s.phase = .tx) :
    s.turnsLeft = frameLen - s.txi.toNat + 1 + (s.txq.length + (frameLen - s.txi.toNat)) := by
  rw [State.turnsLeft, State.framerBudget_of_tx tx, if_pos tx]

theorem turnsLeft_of_not_tx (notTx : s.phase ≠ .tx) : s.turnsLeft = s.framerBudget := by
  rw [State.turnsLeft, if_neg notTx]; rfl

theorem turnsLeft_pos (busy : s.phase ≠ .idle) : 0 < s.turnsLeft :=
  Nat.add_pos_left (State.framerBudget_pos busy) _

theorem turnsLeft_of_idle (idle : s.phase = .idle) : s.turnsLeft = 0 := by
  rw [turnsLeft_of_not_tx (by rw [idle]; nofun), State.framerBudget_of_idle idle]

theorem Move.turnsLeft_lt {n : Turn} (legal : s.Inv) (move : Move n s t) (busy : s.phase ≠ .idle)
    (default : IsDefaultTurn n s) : t.turnsLeft < s.turnsLeft := by
  rcases default with rfl | ⟨rfl, tx⟩ | rfl
  · have spent := move.framerBudget_lt legal
    cases move with
    | put tx short =>
      calc _ = _ := turnsLeft_of_tx (by exact tx)
        _ < s.turnsLeft := by
          rw [turnsLeft_of_tx tx, toNat_add_one_of_lt short, List.length_append, List.length_singleton]
          omega
    | drain tx => exact (turnsLeft_of_idle rfl).trans_lt (turnsLeft_pos busy)
    | take rx | retry rx =>
      rwa [turnsLeft_of_not_tx (by exact rx ▸ nofun), turnsLeft_of_not_tx (by exact rx ▸ nofun)]
    | accept | reject | giveUpFlushed | giveUp => exact (turnsLeft_of_idle rfl).trans_lt (turnsLeft_pos busy)
  · cases move with
    | @wireOut _ b rest head =>
      calc _ = frameLen - s.txi.toNat + 1 + (rest.length + (frameLen - s.txi.toNat)) := turnsLeft_of_tx (by exact tx)
        _ < s.turnsLeft := by
          rw [turnsLeft_of_tx tx, head, List.length_cons]
          omega
  · cases move with
    | timeout => exact (turnsLeft_of_idle rfl).trans_lt (turnsLeft_pos busy)

/-- Only `Host` uses up its program, and no move lays down or uses up turns. -/
theorem Move.keeps_program {n : Turn} (move : Move n s t) (notHost : n ≠ .host) : t.program = s.program := by
  cases move with
  | crcInit | crcUpd | crcGet | frmSend | frmRecv | frmRsync | frmFlush => exact absurd rfl notHost
  | _ => rfl

theorem Move.keeps_sched {n : Turn} (move : Move n s t) : t.sched = s.sched := by
  cases move <;> rfl

theorem Quiet.completes {u : State} (quiet : Quiet s t) (ends : Completes t u) : Completes s u := by
  obtain ⟨phase, op, -, responses⟩ := quiet
  obtain ⟨a, d, response⟩ := ends.response
  exact
    { phase := ends.phase
      op := ends.op.trans op
      outcome := fun tx => ends.outcome (phase.trans tx)
      response := ⟨a, d, by rw [response, responses, op]⟩ }

/-- R109, with what `Host` has still to issue untouched. -/
theorem run_to_completion (legal : s.Inv) (empty : s.sched = []) (busy : s.phase ≠ .idle) :
    ∃ k ≤ s.turnsLeft, ∃ t, core.run k s = .next t ∧ Completes s t ∧ t.Inv ∧ t.sched = [] ∧ t.program = s.program := by
  induction left : s.turnsLeft using Nat.strong_induction_on generalizing s with
  | _ left' ih =>
    subst left
    obtain ⟨n, u, default, move, answers⟩ := exists_default_move legal empty busy
    have fewer := move.turnsLeft_lt legal busy default
    have legal' := move.keeps_legal legal
    have empty' := move.keeps_sched.trans empty
    have program' : u.program = s.program :=
      move.keeps_program (by rcases default with rfl | ⟨rfl, -⟩ | rfl <;> nofun)
    rcases move.of_busy busy with quiet | ends
    · obtain ⟨k, le, t, run, ends, legal, empty, program⟩ := ih _ fewer legal' empty' (quiet.phase ▸ busy) rfl
      exact ⟨k + 1, le.trans_lt fewer, t, (run_succ_of_step answers k).trans run, quiet.completes ends, legal, empty,
        program.trans program'⟩
    · exact ⟨1, turnsLeft_pos busy, u, run_succ_of_step answers 0, ends, legal', empty', program'⟩

/-- Settles O45, from the run to completion, which takes at most one step per unit of the turns left. -/
theorem everyOperationCompletes : Obligations.EveryOperationCompletes := by
  intro s legal empty busy
  obtain ⟨k, le, t, run, ends, -⟩ := run_to_completion legal empty ((State.busy_eq_true s).1 busy)
  obtain ⟨a, d, response⟩ := ends.response
  exact ⟨k, le.trans (turnsLeft_le s), t, _, run, (State.busy_eq_false t).2 ends.phase, response, rfl, rfl⟩

end

end Sys2Proof.Machine
end

section
/-!
PROOFS. Programs under the default turns (42_link_operations.md R110; 20_memory.md R44 (1); log entry 6): they run to their
end, and the responses name their operations in order.
-/

namespace Sys2Proof.Machine

/-- The code of each command instruction (R53); the two rows that are no commands have none. -/
def commandCode : Instr → Option (BitVec 4)
  | .crcInit => some opCrcInit
  | .crcUpd _ => some opCrcUpd
  | .crcGet => some opCrcGet
  | .frmSend _ _ => some opFrmSend
  | .frmRecv => some opFrmRecv
  | .frmRsync => some opFrmRsync
  | .frmFlush => some opFrmFlush
  | .frame .. => none
  | .rsp .. => none

/-- A word that decodes to a command has that command's code. -/
theorem commandCode_of_decode {w : CmdWord} {i : Instr} (dec : decodeCmd w = .ok i) :
    commandCode i = some (cmdOp w) := by
  unfold decodeCmd at dec
  split at dec
  case h_8 => cases dec
  all_goals
    rename_i code
    cases dec
    exact congrArg some (BitVec.eq_of_toNat_eq code.symm)

/-- What the issue of a command leaves: it has been answered, or it is in progress. -/
structure Issued (w : CmdWord) (more : List CmdWord) (s t : State) : Prop where
  program : t.program = more
  sched : t.sched = s.sched
  effect : (t.phase = .idle ∧ ∃ r, t.responses = s.responses ++ [r] ∧ r.op = cmdOp w) ∨
    (t.phase ≠ .idle ∧ t.op = cmdOp w ∧ t.responses = s.responses)

theorem Move.issued {s t : State} {w : CmdWord} {more : List CmdWord} (move : Move .host s t)
    (program : s.program = w :: more) : Issued w more s t := by
  cases move with
  | crcInit idle next dec | crcUpd idle next dec | crcGet idle next dec | frmFlush idle next dec =>
    cases program.symm.trans next
    refine ⟨rfl, rfl, .inl ⟨idle, _, State.responses_respond .., ?_⟩⟩
    exact Option.some.inj (commandCode_of_decode dec)
  | frmSend idle next dec | frmRecv idle next dec | frmRsync idle next dec =>
    cases program.symm.trans next
    exact ⟨rfl, rfl, .inr ⟨nofun, Option.some.inj (commandCode_of_decode dec), rfl⟩⟩

section
variable {s : State}

theorem exists_issue_move {w : CmdWord} {more : List CmdWord} {i : Instr} (idle : s.phase = .idle)
    (program : s.program = w :: more) (dec : decodeCmd w = .ok i) : ∃ t, Move .host s t := by
  rcases decodeCmd_cases dec with rfl | ⟨x, rfl⟩ | rfl | ⟨ty, p, rfl⟩ | rfl | rfl | rfl
  · exact ⟨_, .crcInit idle program dec⟩
  · exact ⟨_, .crcUpd idle program dec⟩
  · exact ⟨_, .crcGet idle program dec⟩
  · exact ⟨_, .frmSend idle program dec⟩
  · exact ⟨_, .frmRecv idle program dec⟩
  · exact ⟨_, .frmRsync idle program dec⟩
  · exact ⟨_, .frmFlush idle program dec⟩

/-- On an idle block the next command is issued by default and runs to its completion. -/
theorem run_command {w : CmdWord} {more : List CmdWord} (legal : s.Inv) (empty : s.sched = []) (idle : s.phase = .idle)
    (program : s.program = w :: more) (decodes : ∃ i, decodeCmd w = .ok i) :
    ∃ k t r, core.run k s = .next t ∧ t.responses = s.responses ++ [r] ∧ r.op = cmdOp w ∧ t.Inv ∧ t.sched = [] ∧
      t.phase = .idle ∧ t.program = more := by
  obtain ⟨i, dec⟩ := decodes
  obtain ⟨u, move⟩ := exists_issue_move idle program dec
  have turn := defaultTurn_eq_host idle (program ▸ List.cons_ne_nil w more)
  have answers := step_of_default move turn empty
  have legal' := move.keeps_legal legal
  obtain ⟨program', sched', ⟨idle', r, response, code⟩ | ⟨busy, op, responses⟩⟩ := move.issued program
  · exact ⟨1, u, r, run_succ_of_step answers 0, response, code, legal', sched'.trans empty, idle', program'⟩
  · obtain ⟨k, -, t, run, ends, legal, empty, rest⟩ := run_to_completion legal' (sched'.trans empty) busy
    obtain ⟨a, d, response⟩ := ends.response
    exact ⟨k + 1, t, _, (run_succ_of_step answers k).trans run, responses ▸ response, op, legal, empty, ends.phase,
      rest.trans program'⟩

theorem run_program (legal : s.Inv) (empty : s.sched = []) (idle : s.phase = .idle)
    (decodes : ∀ w ∈ s.program, ∃ i, decodeCmd w = .ok i) :
    ∃ k t added, core.run k s = .next t ∧ t.RunOver ∧ t.responses = s.responses ++ added ∧
      added.map Response.op = s.program.map cmdOp := by
  induction program : s.program generalizing s with
  | nil => exact ⟨0, s, [], rfl, ⟨program, idle⟩, (List.append_nil _).symm, rfl⟩
  | cons w more ih =>
    rw [program] at decodes
    obtain ⟨k, u, r, run, response, code, legal, empty, idle, rest⟩ :=
      run_command legal empty idle program (decodes w List.mem_cons_self)
    obtain ⟨k', t, added, run', ended, responses, codes⟩ :=
      ih legal empty idle (rest ▸ fun w later => decodes w (List.mem_cons_of_mem _ later)) rest
    refine ⟨k + k', t, r :: added, (run_add_of_run run k').trans run', ended, ?_, by rw [List.map_cons, code, codes]; rfl⟩
    rw [responses, response, List.append_assoc, List.singleton_append]

end

/-- Settles O46: the operation in progress completes first, then the program runs command by command. -/
theorem programsRunToTheirEnd : Obligations.ProgramsRunToTheirEnd := by
  intro s legal empty decodes
  by_cases idle : s.phase = .idle
  · rw [(State.busy_eq_false s).2 idle]
    exact run_program legal empty idle decodes
  · rw [(State.busy_eq_true s).2 idle]
    obtain ⟨k, -, u, run, ends, legal, empty, program⟩ := run_to_completion legal empty idle
    obtain ⟨k', t, added, run', ended, responses, codes⟩ := run_program legal empty ends.phase (program ▸ decodes)
    obtain ⟨a, d, response⟩ := ends.response
    refine ⟨k + k', t, ⟨s.op, u.status.code, a, d⟩ :: added, (run_add_of_run run k').trans run', ended, ?_, ?_⟩
    · rw [responses, response, List.append_assoc, List.singleton_append]
    · rw [List.map_cons, codes, program]
      rfl

end Sys2Proof.Machine
end

section
/-!
PROOFS. Whole operations on a link that does not fail, under the default turns (42_link_operations.md R96 to R106; log entry
6): step by step through the twelve bytes.
-/

namespace Sys2Proof.Machine

/-- A counter that has counted to `k`, at most the length of a frame (R17). -/
theorem toNat_counter {k : Nat} (le : k ≤ frameLen) : (BitVec.ofNat 4 k).toNat = k :=
  Nat.mod_eq_of_lt (show k < 2 ^ 4 by have : frameLen = 12 := rfl; omega)

theorem counter_succ (k : Nat) : BitVec.ofNat 4 k + 1 = BitVec.ofNat 4 (k + 1) :=
  (BitVec.ofNat_add k 1).symm

section
variable {s : State} (empty : s.sched = [])
include empty

/-! ## A send -/

/-- The first `k` bytes handed over, one `put` each. -/
theorem run_puts (tx : s.phase = .tx) (start : s.txi = BitVec.ofNat 4 0) {k : Nat} (le : k ≤ frameLen) :
    core.run k s = .next { s with txi := BitVec.ofNat 4 k, txq := s.txq ++ s.txbuf.toList.take k } := by
  induction k with
  | zero => exact congrArg Host.Outcome.next (by rw [List.take_zero, List.append_nil, ← start])
  | succ k ih =>
    have here := toNat_counter (Nat.le_of_succ_le le)
    have put := Move.put (s := { s with txi := BitVec.ofNat 4 k, txq := s.txq ++ s.txbuf.toList.take k }) tx
      (here.trans_lt le)
    refine (run_add_of_run (ih (Nat.le_of_succ_le le)) 1).trans ?_
    refine (run_succ_of_step (step_of_framer_move put empty) 0).trans (congrArg Host.Outcome.next ?_)
    rw [counter_succ, show (⟨_, here.trans_lt le⟩ : Fin frameLen) = ⟨k, le⟩ from Fin.ext here, List.append_assoc,
      ← take_succ_readByte s.txbuf ⟨k, le⟩]

/-- With all bytes handed over, those that wait leave in order. -/
theorem run_wireOuts (tx : s.phase = .tx) (full : s.txi.toNat = frameLen) {bs : List Byte} (waiting : s.txq = bs) :
    core.run bs.length s = .next { s with wire := s.wire ++ bs, txq := [] } := by
  induction bs generalizing s with
  | nil => exact congrArg Host.Outcome.next (by rw [List.append_nil, ← waiting])
  | cons b rest ih =>
    have turn := defaultTurn_eq_wireOut tx full (waiting ▸ List.cons_ne_nil b rest)
    refine (run_succ_of_step (step_of_default (.wireOut waiting) turn empty) _).trans ?_
    refine (ih (s := { s with wire := s.wire ++ [b], txq := rest }) empty tx full rfl).trans ?_
    rw [List.append_assoc]
    rfl

/-- Twelve bytes are handed over, all that waits leaves, and the send drains. -/
theorem run_send (tx : s.phase = .tx) (start : s.txi = BitVec.ofNat 4 0) {bs : List Byte} (waiting : s.txq = bs) :
    core.run (25 + bs.length) s = .next (State.complete .ok
      { s with txi := BitVec.ofNat 4 frameLen, txq := [], wire := s.wire ++ (bs ++ s.txbuf.toList) }) := by
  have puts := run_puts empty tx start (Nat.le_refl frameLen)
  rw [take_all, waiting] at puts
  have wireOuts := run_wireOuts (s := { s with txi := BitVec.ofNat 4 frameLen, txq := bs ++ s.txbuf.toList })
    empty tx rfl rfl
  have drain := Move.drain
    (s := { s with txi := BitVec.ofNat 4 frameLen, txq := [], wire := s.wire ++ (bs ++ s.txbuf.toList) }) tx rfl rfl
  have turns : 25 + bs.length = frameLen + ((bs ++ s.txbuf.toList).length + 1) := by
    rw [List.length_append, Vector.length_toList]
    have : frameLen = 12 := rfl
    omega
  rw [turns, run_add_of_run puts, run_add_of_run wireOuts]
  exact run_succ_of_step (step_of_framer_move drain empty) 0

end

/-- Settles O47: the issue, then the run of the send. -/
theorem sendCompletesOnAWorkingLink : Obligations.SendCompletesOnAWorkingLink := by
  intro ty p s idle empty
  refine ⟨_, _, whenIdle_of_idle ((State.busy_eq_false s).1 idle) _, run_send (by exact empty) rfl rfl rfl, ?_⟩
  exact ⟨rfl, rfl, rfl, (List.append_assoc ..).symm, rfl, rfl, rfl, rfl⟩

section
variable {s : State} (empty : s.sched = [])
include empty

/-! ## A receive -/

/-- The first `k` bytes of a waiting window taken, one `take` each; the rest of `RXBUF` may hold anything. -/
theorem run_takes (rx : s.phase = .rx) (start : s.rxc = BitVec.ofNat 4 0) {window : Buffer} {rest : List Byte}
    (waiting : s.rxq = window.toList ++ rest) {k : Nat} (le : k ≤ frameLen) :
    ∃ buf : Buffer, buf.toList.take k = window.toList.take k ∧ core.run k s =
      .next { s with rxc := BitVec.ofNat 4 k, rxbuf := buf, rxq := window.toList.drop k ++ rest } := by
  induction k with
  | zero => exact ⟨s.rxbuf, rfl, congrArg Host.Outcome.next (by rw [List.drop_zero, ← waiting, ← start])⟩
  | succ k ih =>
    obtain ⟨buf, taken, run⟩ := ih (Nat.le_of_succ_le le)
    have here := toNat_counter (Nat.le_of_succ_le le)
    have head : window.toList.drop k ++ rest = readByte window ⟨k, le⟩ :: (window.toList.drop (k + 1) ++ rest) := by
      rw [List.drop_eq_getElem_cons (by simpa using le), List.cons_append]
      rfl
    have take := Move.take
      (s := { s with rxc := BitVec.ofNat 4 k, rxbuf := buf, rxq := window.toList.drop k ++ rest }) rx
      (here.trans_lt le) head
    refine ⟨writeByte buf ⟨k, le⟩ (readByte window ⟨k, le⟩), ?_, ?_⟩
    · rw [take_succ_writeByte buf ⟨k, le⟩, taken, take_succ_readByte window ⟨k, le⟩]
    · refine (run_add_of_run run 1).trans ?_
      refine (run_succ_of_step (step_of_framer_move take empty) 0).trans (congrArg Host.Outcome.next ?_)
      rw [counter_succ, show (⟨_, here.trans_lt le⟩ : Fin frameLen) = ⟨k, le⟩ from Fin.ext here]

/-- A whole waiting window is in `RXBUF` after twelve steps. -/
theorem run_window (rx : s.phase = .rx) (start : s.rxc = BitVec.ofNat 4 0) {window : Buffer} {rest : List Byte}
    (waiting : s.rxq = window.toList ++ rest) :
    core.run frameLen s = .next { s with rxc := BitVec.ofNat 4 frameLen, rxbuf := window, rxq := rest } := by
  obtain ⟨buf, taken, run⟩ := run_takes empty rx start waiting (Nat.le_refl _)
  rw [take_all, take_all] at taken
  cases Vector.toList_inj.1 taken
  rw [run, List.drop_of_length_le (by simp)]
  rfl

/-- A waiting frame is taken and reported in thirteen steps, by both receive operations (R104). -/
theorem run_accept (rx : s.phase = .rx) (start : s.rxc = BitVec.ofNat 4 0) (op : s.op = opFrmRecv ∨ s.op = opFrmRsync)
    {ty : Byte} {p : Payload} {rest : List Byte} (waiting : s.rxq = (encodeFrame s.params ty p).toList ++ rest) :
    core.run 13 s = .next (State.completeOk ty p
      { s with rxc := BitVec.ofNat 4 frameLen, rxbuf := encodeFrame s.params ty p, rxq := rest }) := by
  refine (run_add_of_run (run_window empty rx start waiting) 1).trans ?_
  have accept := Move.accept
    (s := { s with rxc := BitVec.ofNat 4 frameLen, rxbuf := encodeFrame s.params ty p, rxq := rest }) rx rfl
    (decodeFrame_encodeFrame s.params ty p) op
  exact run_succ_of_step (step_of_framer_move accept empty) 0

/-- A window that does not decode costs an attempt and all that waits, while attempts are left (R104). -/
theorem run_retry (rx : s.phase = .rx) (start : s.rxc = BitVec.ofNat 4 0) (op : s.op = opFrmRsync) {window : Buffer}
    {junk : List Byte} (waiting : s.rxq = window.toList ++ junk) {r : Status}
    (bad : (decodeFrame s.params window).FailsWith r) (more : (s.att + 1).toNat ≠ s.params.maxAttempts.toNat) :
    core.run 13 s = .next { s with att := s.att + 1, rxq := [], rxc := 0, rxbuf := window } := by
  refine (run_add_of_run (run_window empty rx start waiting) 1).trans ?_
  have retry := Move.retry (s := { s with rxc := BitVec.ofNat 4 frameLen, rxbuf := window, rxq := junk }) rx rfl bad op more
  exact run_succ_of_step (step_of_framer_move retry empty) 0

end

/-- Settles O48: the issue, then the twelve bytes and the check. -/
theorem recvReturnsTheOldestFrame : Obligations.RecvReturnsTheOldestFrame := by
  intro ty p rest s idle empty waiting
  refine ⟨_, _, whenIdle_of_idle ((State.busy_eq_false s).1 idle) _,
    run_accept (by exact empty) rfl rfl (.inl rfl) (by exact waiting), ?_⟩
  exact ⟨rfl, rfl, rfl, rfl, rfl, rfl, rfl, rfl, rfl, rfl, rfl⟩

theorem one_ne_maxAttempts (c : Params) : ((0 : BitVec 3) + 1).toNat ≠ c.maxAttempts.toNat := by
  cases c.maxAttempts <;> decide

/-- Settles O49: the issue, the failed attempt, which is the first and so not the last, and the next one. -/
theorem rsyncRecoversAfterABadWindow : Obligations.RsyncRecoversAfterABadWindow := by
  intro window junk r s idle empty waiting bad
  refine ⟨_, _, whenIdle_of_idle ((State.busy_eq_false s).1 idle) _,
    run_retry (by exact empty) rfl rfl rfl (by exact waiting) (by exact bad) (one_ne_maxAttempts s.params),
    rfl, rfl, rfl, rfl, rfl, fun ty p rest => ?_⟩
  refine ⟨_, run_accept (by exact empty) rfl rfl (.inr rfl) rfl, ?_⟩
  exact ⟨rfl, rfl, rfl, rfl, rfl, rfl, rfl, rfl⟩

end Sys2Proof.Machine
end

section
/-!
PROOFS. `FRM.RSYNC` as the loop of the operations it stands for (42_link_operations.md R105).
-/

namespace Sys2Proof.Machine

theorem exec_frmRecv_eq_next {s t : State} : exec .frmRecv s = .next t ↔
    s.busy = false ∧ t = { s.clearValid with op := opFrmRecv, rxc := 0, phase := .rx } :=
  whenIdle_eq_next_iff_not_busy

section
variable {s : State} (rx : s.phase = .rx) (full : s.rxc.toNat = frameLen)
include rx full

/-- The check step of `FRM.RECV` in the state of another operation. -/
theorem step_asRecv_accept {ty : Byte} {p : Payload} (good : decodeFrame s.params s.rxbuf = .ok ty p) :
    step (State.scheduled .framer { s with op := 0x5 }) = .next (State.completeOk ty p { s with op := 0x5 }) :=
  takeTurn_of_move (.accept (s := { s with op := 0x5 }) rx full good (.inl rfl))

theorem step_asRecv_reject {r : Status} (bad : (decodeFrame s.params s.rxbuf).FailsWith r) :
    step (State.scheduled .framer { s with op := 0x5 }) = .next (State.complete r { s with op := 0x5 }) :=
  takeTurn_of_move (.reject (s := { s with op := 0x5 }) rx full bad rfl)

end

/-- Settles O43: the check of `FRM.RSYNC` and that of `FRM.RECV` make the same move but for the code and the counted attempt;
what `FRM.FLUSH` and `FRM.RECV` add from there is the rest of a retry. -/
theorem rsyncIsTheLoopOfReceives : Obligations.RsyncIsTheLoopOfReceives := by
  intro s legal rx full op
  by_cases good : (decodeFrame s.params s.rxbuf).outcome = .ok
  · obtain ⟨ty, p, accepted⟩ := outcome_eq_ok_iff.1 good
    refine ⟨_, step_asRecv_accept rx full accepted, fun ty' p' accepted' => ?_, fun r bad => ?_⟩
    · cases accepted.symm.trans accepted'
      rw [step_scheduled, takeTurn_of_move (.accept rx full accepted (.inr op)), ← op]
      rfl
    · obtain ⟨rfl, notOk⟩ := failsWith_iff.1 bad
      exact absurd good notOk
  · have bad := failsWith_iff.2 ⟨rfl, good⟩
    refine ⟨_, step_asRecv_reject rx full bad, fun ty p accepted => ?_, fun r bad' => ?_⟩
    · exact absurd (outcome_eq_ok_iff.2 ⟨ty, p, accepted⟩) good
    · obtain ⟨rfl, -⟩ := failsWith_iff.1 bad'
      refine ⟨_, _, exec_frmFlush_eq_next.2 ⟨rfl, rfl⟩, exec_frmRecv_eq_next.2 ⟨rfl, rfl⟩, fun more => ?_, fun last => ?_⟩
      · rw [step_scheduled, takeTurn_of_move (.retry rx full bad op more), legal.rvalid_of_rx rx, rx, op]
        rfl
      · rw [← op]
        cases fof : s.params.flushOnFinal
        case true => exact ⟨_, _, takeTurn_of_move (.giveUpFlushed rx full bad op last fof)⟩
        case false => exact ⟨_, _, takeTurn_of_move (.giveUp rx full bad op last fof)⟩

end Sys2Proof.Machine
end
